-- ==== Sys2Proof/Word.lean ====
section
/-! DEFINITION. Bytes, words and the byte literals of the spec. -/

namespace Sys2Proof

/-- A byte (00_scope.md R8). -/
abbrev Byte := BitVec 8

/-- A command word or a response word (30_encoding.md R67, R72). -/
abbrev Word := BitVec 32

/-- `{b}`: one bit as a 1-bit field (R9). -/
abbrev bit (b : Bool) : BitVec 1 := BitVec.ofBool b

/-! The byte literals of 00_scope.md R10. -/

/-- `'/'`, the start marker. -/
abbrev chSlash : Byte := 0x2F
/-- `'!'`, the end marker. -/
abbrev chBang : Byte := 0x21
/-- `'\r'`. -/
abbrev chCr : Byte := 0x0D
/-- `'\n'`. -/
abbrev chLf : Byte := 0x0A
/-- The backslash, the protocol-mode marker of R81. -/
abbrev chBackslash : Byte := 0x5C
/-- `'?'`. -/
abbrev chQuery : Byte := 0x3F
/-- `'0'`. -/
abbrev chZero : Byte := 0x30
/-- `'2'`. -/
abbrev chTwo : Byte := 0x32
/-- `'6'`. -/
abbrev chSix : Byte := 0x36
/-- `'A'`. -/
abbrev chA : Byte := 0x41
/-- `'B'`. -/
abbrev chB : Byte := 0x42
/-- `'G'`. -/
abbrev chG : Byte := 0x47
/-- `'q'`. -/
abbrev chQ : Byte := 0x71
/-- `ACK`. -/
abbrev chAck : Byte := 0x06

end Sys2Proof
end

