-- ==== Sys2Proof/Config.lean ====
section
/-! DEFINITION. The implementation parameters of 00_scope.md R7 and the model's free values. -/

namespace Sys2Proof

/-- `P_BODY_CHECK` (42_d0_handshake.md R125): which non-printable test the D0 body capture uses. -/
inductive BodyCheck where
  | intended
  | literal
  deriving DecidableEq, Repr, Inhabited

/-- `CRC16_FN` (40_crc.md R87): the default of R88, or any function whatever. -/
inductive CrcFunction where
  /-- CRC-16/ARC, the default (R88). -/
  | arc
  /-- A function of which nothing is known, `Config.freeCrc16`. -/
  | free
  deriving DecidableEq, Repr, Inhabited

/-- The parameters of R7 that a model takes as an argument, as plain data. They reach the machine through
`State.params`; no command writes them (assumption log 1, 2 and 3). -/
structure Params where
  /-- `P_BODY_CHECK`, OPEN in the spec. -/
  bodyCheck : BodyCheck
  /-- `P_D0_REBASE`, OPEN in the spec: whether D0_READ applies the D0 baseline before the wake-up (R112). -/
  d0Rebase : Bool
  /-- `P_CHARGE_SEARCH`: whether bytes discarded while searching are charged (R96). -/
  chargeSearch : Bool
  /-- `CRC16_FN` (R87). -/
  crc : CrcFunction
  deriving DecidableEq, Repr

/-- The value `State.reset` carries for `P_BODY_CHECK`. The spec leaves it OPEN (D37), so it has no body and no
proof can rest on it (assumption log 1). -/
opaque Config.bodyCheck : BodyCheck

/-- The value `State.reset` carries for `P_D0_REBASE`. The spec leaves it OPEN (D40), so it has no body and no
proof can rest on it (assumption log 1). -/
opaque Config.d0Rebase : Bool

/-- What the n-th read of an UNWRITTEN buffer cell yields (10_state.md R31, 93_implementation_defined.md U2): any
byte, drawn per read. `n` is `State.draws` (assumption log 8). -/
opaque Config.unwrittenByte : Nat → Byte

/-- `CRC16_FN` where it is not the default (R87): no body, so no proof can rest on a property of it (assumption
log 3). -/
opaque Config.freeCrc16 : List Byte → BitVec 16

/-- The parameters at reset: the defaults of R7 where it gives one. -/
def Config.params : Params where
  bodyCheck := Config.bodyCheck
  d0Rebase := Config.d0Rebase
  chargeSearch := false
  crc := .arc

/-- `N_WAKE` (R7): the number of null bytes in the wake-up. -/
def Config.nWake : Nat := 65

/-- `T_SETTLE_MS` (R7): the settle time after the wake-up. -/
def Config.tSettleMs : Nat := 2700

/-- The least CAPACITY an OPEN accepts (43_session.md R139, D12). -/
def Config.minCapacity : Nat := 8

end Sys2Proof
end

