-- ==== Sys2Proof/Syntax.lean ====
section
/-! DEFINITION. The commands of the block: one constructor per row of spec/opcode_table.json. -/

namespace Sys2Proof

/-- A command (30_encoding.md R66 to R69). The operands are the fields REG (8 bits) and IMM16 (16 bits) of the
command word, used as given (R69). -/
inductive Instr where
  /-- REG_READ, R136. -/
  | regRead (reg : BitVec 8)
  /-- REG_WRITE, R137. -/
  | regWrite (reg : BitVec 8) (value : BitVec 16)
  /-- BUF_READ, R138. -/
  | bufRead (offset : BitVec 16)
  /-- CRC_COMPUTE, R85. -/
  | crcCompute (n : BitVec 16)
  /-- FRAME_READ, R94. -/
  | frameRead
  /-- D0_READ, R111. -/
  | d0Read
  /-- OPEN_P1, R139. -/
  | openP1
  /-- OPEN_D0, R140. -/
  | openD0
  /-- READ, R141. -/
  | read
  /-- CLOSE, R146. -/
  | close
  deriving DecidableEq, Repr

end Sys2Proof
end

