-- ==== Sys2Proof/WellFormed.lean ====
section
/-! DEFINITION. Which commands name what the opcode table lists for their REG operand. -/

namespace Sys2Proof

/-- The operand ranges of spec/opcode_table.json: REG_READ takes a register index 0x00..0x0D, REG_WRITE one of
0x02..0x05. Every IMM16 is admitted. The block executes ill-formed commands too: it answers them with ERR_BADCMD
(43_session.md R136, R137), so no meaning and no statement is restricted to well-formed ones (assumption log 10). -/
def WellFormed : Instr → Bool
  | .regRead reg => reg ≤ 0x0D#8
  | .regWrite reg _ => 0x02#8 ≤ reg && reg ≤ 0x05#8
  | .bufRead _ => true
  | .crcCompute _ => true
  | .frameRead => true
  | .d0Read => true
  | .openP1 => true
  | .openD0 => true
  | .read => true
  | .close => true

end Sys2Proof
end

