-- ==== Sys2Proof/Decode.lean ====
section
/-! DEFINITION. Decoding a command word and encoding a command (30_encoding.md R67 to R71). -/

namespace Sys2Proof

/-- Why a word is illegal (R70). -/
inductive Illegal where
  /-- OPC is not in the table of R68. -/
  | reservedOpcode
  /-- REG is not 0 for an opcode other than REG_READ and REG_WRITE. -/
  | nonzeroReg
  /-- IMM16 is not 0 for an opcode whose IMM16 column says 0. -/
  | nonzeroImm
  deriving DecidableEq, Repr

/-- What decoding a word gives. -/
inductive Decoded where
  | command (i : Instr)
  | illegal (why : Illegal)
  deriving DecidableEq, Repr

/-- `w[31:24]` (R67). -/
def opcField (w : Word) : BitVec 8 := w.extractLsb' 24 8

/-- `w[23:16]` (R67). -/
def regField (w : Word) : BitVec 8 := w.extractLsb' 16 8

/-- `w[15:0]` (R67). -/
def immField (w : Word) : BitVec 16 := w.extractLsb' 0 16

/-- A command whose IMM16 must be 0. -/
def needImmZero (w : Word) (i : Instr) : Decoded :=
  if immField w = 0 then .command i else .illegal .nonzeroImm

/-- A command whose REG must be 0. -/
def needRegZero (w : Word) (i : Instr) : Decoded :=
  if regField w = 0 then .command i else .illegal .nonzeroReg

/-- A command whose REG and IMM16 must be 0. -/
def needBothZero (w : Word) (i : Instr) : Decoded :=
  if regField w = 0 then needImmZero w i else .illegal .nonzeroReg

/-- The opcode map (R68) with the must-be-zero fields of R67 and R70. Total on every word. -/
def decode (w : Word) : Decoded :=
  if opcField w = 0x01 then needImmZero w (.regRead (regField w))
  else if opcField w = 0x02 then .command (.regWrite (regField w) (immField w))
  else if opcField w = 0x03 then needRegZero w (.bufRead (immField w))
  else if opcField w = 0x10 then needRegZero w (.crcCompute (immField w))
  else if opcField w = 0x20 then needBothZero w .frameRead
  else if opcField w = 0x30 then needBothZero w .d0Read
  else if opcField w = 0x40 then needBothZero w .openP1
  else if opcField w = 0x41 then needBothZero w .openD0
  else if opcField w = 0x42 then needBothZero w .read
  else if opcField w = 0x43 then needBothZero w .close
  else .illegal .reservedOpcode

/-- `(OPC << 24) | (REG << 16) | IMM16` (R73). -/
def commandWord (opc reg : BitVec 8) (imm : BitVec 16) : Word := opc ++ reg ++ imm

/-- The word of a command, from the encodings of R68. -/
def encode : Instr → Word
  | .regRead reg => commandWord 0x01 reg 0
  | .regWrite reg value => commandWord 0x02 reg value
  | .bufRead offset => commandWord 0x03 0 offset
  | .crcCompute n => commandWord 0x10 0 n
  | .frameRead => commandWord 0x20 0 0
  | .d0Read => commandWord 0x30 0 0
  | .openP1 => commandWord 0x40 0 0
  | .openD0 => commandWord 0x41 0 0
  | .read => commandWord 0x42 0 0
  | .close => commandWord 0x43 0 0

/-- The command decoded from an instruction whose bits are `w`, numbered as spec/opcode_table.json numbers them.
Every command is exactly one 32-bit word (R71), so bits above bit 31 belong to no command. -/
def decodeTableWord (nbits w : Nat) : Option Instr :=
  if w % 2 ^ nbits < 2 ^ 32 then
    match decode (BitVec.ofNat 32 (w % 2 ^ nbits)) with
    | .command i => some i
    | .illegal _ => none
  else none

end Sys2Proof
end

