-- ==== Sys2Proof/Machine/State.lean ====
section
/-! DEFINITION. The state of the block and of the environment it exchanges with, and the state at power-on reset. -/

namespace Sys2Proof.Machine

/-! ## Register fields -/

/-- STATUS.PATH (10_state.md R22): which OPEN variant opened the session. -/
inductive Path where
  | p1
  | d0
  deriving DecidableEq, Repr, Inhabited

/-- STATUS.MODE (R22, R43). `modeD` is named by the spec and never written (R121). -/
inductive Mode where
  | probe
  | modeA
  | modeB
  | modeC
  | modeD
  | modeE
  deriving DecidableEq, Repr, Inhabited

/-- STATUS.STYLE (R22): how CRC_COMPUTE classed its buffer. -/
inductive Style where
  | unclassed
  | legacy
  | crc
  deriving DecidableEq, Repr, Inhabited

/-- The status of a `Parse` outcome (R36). -/
inductive Verdict where
  | incomplete
  | accepted
  | rejected
  deriving DecidableEq, Repr, Inhabited

/-- The fields of STATUS (R22). The word itself is `Status.word`. -/
structure Status where
  /-- OPEN, bit 0. -/
  isOpen : Bool
  /-- PATH, bit 1. -/
  path : Path
  /-- TERM, bit 2. -/
  term : Bool
  /-- MODE, bits 5..3. -/
  mode : Mode
  /-- STYLE, bits 7..6. -/
  style : Style
  /-- CRC_MISMATCH, bit 8. -/
  crcMismatch : Bool
  /-- CRC_PRESENT, bit 9. -/
  crcPresent : Bool
  /-- PARSE_STATUS, bits 11..10; `none` is NONE (no parse this read). -/
  parseStatus : Option Verdict
  /-- PARSE_OK, bit 12. -/
  parseOk : Bool
  /-- ACK_SENT, bit 13. -/
  ackSent : Bool
  /-- SIGNOFF_SENT, bit 14. -/
  signoffSent : Bool
  /-- DUMPED, bit 15. -/
  dumped : Bool
  deriving DecidableEq, Repr

/-- CONFIG.BAUD (R23). Codes 9 to 15 never occur and have no constructor. -/
inductive Baud where
  | unset
  | b300
  | b600
  | b1200
  | b2400
  | b4800
  | b9600
  | b19200
  | b115200
  deriving DecidableEq, Repr, Inhabited

/-- CONFIG.CSIZE (R23). -/
inductive CharSize where
  | seven
  | eight
  deriving DecidableEq, Repr, Inhabited

/-- CONFIG.PARITY (R23). Codes 2 and 3 never occur and have no constructor. -/
inductive Parity where
  | noParity
  | even
  deriving DecidableEq, Repr, Inhabited

/-- The fields of CONFIG (R23), and what `Apply` hands to the transport (R37). The word is `TransportConfig.word`. -/
structure TransportConfig where
  /-- BAUD, bits 3..0. -/
  baud : Baud
  /-- CSIZE, bit 4. -/
  csize : CharSize
  /-- PARITY, bits 6..5. -/
  parity : Parity
  /-- CLOCAL, bit 7. -/
  clocal : Bool
  /-- RAW, bit 8. -/
  raw : Bool
  /-- STOPB, bit 9: one stop bit, always 0 (D50). -/
  stopb : Bool
  /-- VTIME, bits 23..16, deciseconds. -/
  vtime : BitVec 8
  deriving DecidableEq, Repr

/-- The buffer BUF (R31): offset and byte pairs, offsets strictly rising. An unlisted offset is UNWRITTEN. -/
abbrev Memory := List Host.Cell

/-! ## The environment (10_state.md section 5) -/

/-- An answer to `Rx()` (R33). -/
inductive RxAnswer where
  | byte (b : Byte)
  | empty
  | error
  deriving DecidableEq, Repr

/-- An answer to `Tx(s)` (R34); `TxAnswer.fits` is its bound `n <= |s|`. -/
inductive TxAnswer where
  | written (n : Nat)
  | error
  deriving DecidableEq, Repr

/-- An answer to `Apply(cfg)` (R37). -/
inductive ApplyAnswer where
  | ok
  | fail
  deriving DecidableEq, Repr

/-- An answer to `Acquire()` (R38). -/
inductive AcquireAnswer where
  | ok (term : Bool)
  | fail
  deriving DecidableEq, Repr

/-- An answer to `Parse(s)` (R36): `Outcome(status, errors, crc)`. -/
structure ParseAnswer where
  status : Verdict
  errors : Nat
  crc : Option (BitVec 16)
  deriving DecidableEq, Repr

/-- The answers the environment gives from here on, oldest first, and the command words the host sends from here
on. The block's inputs, not its state (R19, R41): a request whose list is empty has not been answered and the
block waits (R48, U10). `Drain`, `Wait`, `Restore` and `Dump` answer `Done` only (R35, R38, R39), so their answers
are counted (assumption log 4, 5 and 6). -/
structure Env where
  /-- The command words the host sends, each when the block is IDLE (R48, R66). -/
  host : List Word
  rx : List RxAnswer
  tx : List TxAnswer
  apply : List ApplyAnswer
  acquire : List AcquireAnswer
  parse : List ParseAnswer
  /-- How many more requests the environment answers with `Done`. -/
  done : Nat
  deriving DecidableEq, Repr

/-- A request of the block to its environment (00_scope.md R12). -/
inductive Request where
  | rx
  | tx (s : List Byte)
  | drain
  | wait (ms : Nat)
  | apply (cfg : TransportConfig)
  | acquire
  | restore
  | parse (s : List Byte)
  | dump (s : List Byte)
  deriving DecidableEq, Repr

/-- What the block puts on its ports: a request, or the response word of a command (R72, R135). -/
inductive Output where
  | request (r : Request)
  | response (v : Word)
  deriving DecidableEq, Repr

/-! ## Internal control state -/

/-- CTL (R32). Every state but `idle` and `d0IdParse` has exactly one request outstanding and names what it waits for. Where a rule
makes several exchanges, its state is split (`d0Wake`, `d0WakeDrain`, `d0Settle` are D0_WAKE, and so on) (assumption
log 12). -/
inductive Ctl where
  | idle
  /-- FR_SEARCH (R96). -/
  | frSearch
  /-- FR_ACCUM (R97). -/
  | frAccum
  /-- FR_TAIL2 (R99): the reads of T1 and T2. -/
  | frTail2
  /-- FR_TAIL4 (R102): the reads of T3 to T6. -/
  | frTail4
  /-- The rebase `Apply` of R112. -/
  | d0Rebase
  /-- D0_WAKE: a null byte (R113). -/
  | d0Wake
  /-- D0_WAKE: the `Drain` of R114. -/
  | d0WakeDrain
  /-- D0_WAKE: the `Wait` of R114. -/
  | d0Settle
  /-- D0_SIGNON: the `Tx` of R115. -/
  | d0Signon
  /-- D0_SIGNON: the `Drain` of R115. -/
  | d0SignonDrain
  /-- D0_AWAIT_ID (R116). -/
  | d0AwaitId
  /-- D0_ID_READ (R117). -/
  | d0IdRead
  /-- D0_ID_PARSE (R118 to R122). It makes no exchange, so the block goes on from it at once. -/
  | d0IdParse
  /-- D0_ACK: the `Tx` of R123. -/
  | d0Ack
  /-- D0_ACK: the `Drain` of R123. -/
  | d0AckDrain
  /-- D0_BAUD: the `Apply` of R124. -/
  | d0Baud
  /-- D0_CAPTURE (R126). -/
  | d0Capture
  /-- D0_SIGNOFF: the `Tx` of R128. -/
  | d0Signoff
  /-- D0_SIGNOFF: the `Drain` of R128. -/
  | d0SignoffDrain
  /-- OPEN: the `Acquire` of R139 and R140. -/
  | opAcquire (p : Path)
  /-- OPEN: the P1 baseline `Apply` of R139 and R140. -/
  | opApplyP1 (p : Path)
  /-- OPEN_D0: the D0 baseline `Apply` of R140. -/
  | opApplyD0
  /-- OPEN: the `Restore` after a failed `Apply` (R139, R140). -/
  | opRestore
  /-- READ: the toggle's `Apply` (R143). -/
  | rdToggle
  /-- READ: the `Parse` of R149. -/
  | rdParse
  /-- READ: the `Dump` of R147. -/
  | rdDump
  /-- CLOSE: the `Restore` of R146. -/
  | clRestore
  deriving DecidableEq, Repr, Inhabited

/-- The internal registers of R32 other than CTL, and the values a rule holds across an exchange. Undefined between
commands (R32): no command reads one before writing it (assumption log 7). -/
structure Work where
  /-- LEN, the working length. -/
  len : BitVec 16
  /-- T[1..6], as many as have been read; `none` is NONE. -/
  tail : List (Option Byte)
  /-- GOT. -/
  got : Nat
  /-- NULLS. -/
  nulls : Nat
  /-- C4. -/
  c4 : Byte
  /-- ACKQ. -/
  ackq : Bool
  /-- SWQ. -/
  swq : Bool
  /-- NEWBAUD. -/
  newbaud : Baud
  /-- MF, MAXFAIL as FRAME_READ sampled it (R95). -/
  mf : BitVec 16
  /-- `r`, the `Tx` answer that R115, R123 and R128 test after the `Drain`. -/
  wrote : TxAnswer
  /-- The framer or D0 body runs as a sub-step of READ (R163). -/
  inRead : Bool
  /-- `s`, the string handed to `Parse` and to `Dump` (R147). -/
  telegram : List Byte
  deriving DecidableEq, Repr

/-! ## The state -/

/-- The state: the registers of R21 to R30, the buffer (R31), the session latch (R42), the internal control state
(R32), the parameters (R7), and the model's own `env`, `draws` and `out`. -/
structure State where
  /-- STATUS, index 0x00 (R22). -/
  status : Status
  /-- CONFIG, index 0x01 (R23). -/
  config : TransportConfig
  /-- CAPACITY, index 0x02 (R24). -/
  capacity : BitVec 16
  /-- VTIME, index 0x03 (R25). -/
  vtime : BitVec 8
  /-- MAXFAIL, index 0x04 (R26). -/
  maxfail : BitVec 16
  /-- DUMP_EN, index 0x05 (R27). -/
  dumpEn : Bool
  /-- LAST_LEN, index 0x06 (R28). -/
  lastLen : BitVec 16
  /-- CRC_COMPUTED, index 0x07 (R29). -/
  crcComputed : BitVec 16
  /-- CRC_EMBEDDED, index 0x08 (R29). -/
  crcEmbedded : BitVec 16
  /-- FAILCNT, index 0x09 (R30). -/
  failcnt : BitVec 31
  /-- ID_LEN, index 0x0A (R28). -/
  idLen : BitVec 16
  /-- PARSE_ERRORS, index 0x0B (R30). -/
  parseErrors : BitVec 31
  /-- RESULT, index 0x0C (R30). -/
  result : Word
  /-- BUFCAP, index 0x0D (R30). -/
  bufcap : BitVec 16
  /-- BUF (R31). -/
  buf : Memory
  /-- DUMP_S (R42). -/
  dumpS : Bool
  /-- CTL (R32). -/
  ctl : Ctl
  /-- The other internal registers (R32). -/
  work : Work
  /-- The parameters a model takes as an argument (R7). -/
  params : Params
  /-- The environment's answers and the host's words to come. -/
  env : Env
  /-- The model's own: how many free bytes have been drawn (assumption log 8). -/
  draws : Nat
  /-- The model's own: what the block has put on its ports, oldest first (assumption log 9). -/
  out : List Output
  deriving DecidableEq, Repr

/-! ## Why a step stops -/

/-- The machine stops with a fault. -/
inductive Fault where
  /-- Raised by every meaning when it is given a state whose CTL is not IDLE: the host has no such move
  (10_state.md R48, 70_reset_and_hazards.md R183, U9 "stuck"). `step` never does so. Safe: the hardware has no
  such run (assumption log 13). -/
  | commandInProgress
  deriving DecidableEq, Repr

/-- No meaning for the step. -/
inductive Refusal where
  /-- Raised by `exec` for a command without a meaning. No arm raises it: every command is modelled. Safe. -/
  | notModelled (mnemonic : String)
  /-- Raised by `bufWrite` at an offset >= BUFCAP: 20_memory.md R56 asks a model to refuse such a step (U12). No
  state that satisfies the invariant reaches it. Safe (assumption log 14). -/
  | bufferOverrun
  deriving DecidableEq, Repr

/-- The outcome of a step or of a part of one. -/
abbrev Result := Host.Outcome State Fault Refusal

/-! ## Reset -/

/-- STATUS = 0 (R46). -/
def Status.reset : Status where
  isOpen := false
  path := .p1
  term := false
  mode := .probe
  style := .unclassed
  crcMismatch := false
  crcPresent := false
  parseStatus := none
  parseOk := false
  ackSent := false
  signoffSent := false
  dumped := false

/-- CONFIG = 0, meaning no configuration (R23, R46). -/
def TransportConfig.reset : TransportConfig where
  baud := .unset
  csize := .seven
  parity := .noParity
  clocal := false
  raw := false
  stopb := false
  vtime := 0

/-- No command word sent and no request answered yet (assumption log 4 and 6). -/
def Env.nothing : Env where
  host := []
  rx := []
  tx := []
  apply := []
  acquire := []
  parse := []
  done := 0

/-- The internal registers at reset: DESIGN CHOICE, the spec calls them undefined between commands (R32,
assumption log 7). -/
def Work.reset : Work where
  len := 0
  tail := []
  got := 0
  nulls := 0
  c4 := 0
  ackq := false
  swq := false
  newbaud := .unset
  mf := 0
  wrote := .error
  inRead := false
  telegram := []

/-- Power-on reset (10_state.md R46, 70_reset_and_hazards.md R170): every register 0, no session, MODE Probe, no
buffer cells, CTL IDLE, DUMP_S 0. -/
def State.reset : State where
  status := Status.reset
  config := TransportConfig.reset
  capacity := 0
  vtime := 0
  maxfail := 0
  dumpEn := false
  lastLen := 0
  crcComputed := 0
  crcEmbedded := 0
  failcnt := 0
  idLen := 0
  parseErrors := 0
  result := 0
  bufcap := 0
  buf := []
  dumpS := false
  ctl := .idle
  work := Work.reset
  params := Config.params
  env := Env.nothing
  draws := 0
  out := []

end Sys2Proof.Machine
end

