-- ==== Sys2Proof/Machine/Ops.lean ====
section
/-! DEFINITION. The shared operations: the buffer, the exchange primitives, responding and failing. -/

namespace Sys2Proof.Machine

/-! ## The buffer as data -/

/-- The byte at offset `a`; `none` is UNWRITTEN (10_state.md R31). -/
def Memory.read : Memory → Nat → Option Byte
  | [], _ => none
  | (k, v) :: m, a => if k = a then some v else Memory.read m a

/-- The buffer with `b` at offset `a`. -/
def Memory.write : Memory → Nat → Byte → Memory
  | [], a, b => [(a, b)]
  | (k, v) :: m, a, b =>
    if a < k then (a, b) :: (k, v) :: m
    else if a = k then (a, b) :: m
    else (k, v) :: Memory.write m a b

/-- The canonical form: offsets strictly rising. No entry equals what an unlisted offset reads as, since an unlisted
offset reads as UNWRITTEN and an entry is a byte. -/
abbrev Memory.wf (m : Memory) : Prop := m.Pairwise fun x y => x.1 < y.1

/-! ## Outcomes -/

/-- Go on with the next state, or stop as `r` stops. -/
def andThen (r : Result) (k : State → Result) : Result :=
  match r with
  | .next s => k s
  | .fault f => .fault f
  | .refused f => .refused f

/-! ## Checked buffer access (20_memory.md section 4) -/

/-- `BufRead(i)` (R55): the byte, or OUT_OF_RANGE (`none`) for `i >= BUFCAP`. An UNWRITTEN cell yields a fresh free
byte and counts the draw (R31, assumption log 8). -/
def bufRead (i : Nat) (s : State) : Option Byte × State :=
  if i < s.bufcap.toNat then
    match s.buf.read i with
    | some b => (some b, s)
    | none => (some (Config.unwrittenByte s.draws), { s with draws := s.draws + 1 })
  else (none, s)

/-- `buf[i..i+n)` (00_scope.md R11), read byte by byte in offset order. An offset out of range yields no byte; no
rule asks for one (assumption log 14). -/
def bufSlice : Nat → Nat → State → List Byte × State
  | _, 0, s => ([], s)
  | i, n + 1, s =>
    let first := bufRead i s
    let rest := bufSlice (i + 1) n first.2
    (first.1.toList ++ rest.1, rest.2)

/-- `BufWrite(i, b)` (R56): stores `b`; a write at `i >= BUFCAP` is never issued by the rules and refuses the step. -/
def bufWrite (i : Nat) (b : Byte) (s : State) : Result :=
  if i < s.bufcap.toNat then .next { s with buf := s.buf.write i b }
  else .refused .bufferOverrun

/-- `BufWrite` of each byte in turn, at rising offsets from `i`. -/
def bufWriteAll : Nat → List Byte → State → Result
  | _, [], s => .next s
  | i, b :: bs, s => andThen (bufWrite i b s) (bufWriteAll (i + 1) bs)

/-! ## Exchanges (00_scope.md R12) -/

/-- Issue request `r` and wait for its answer in control state `c`. -/
def issue (r : Request) (c : Ctl) (s : State) : State :=
  { s with ctl := c, out := s.out ++ [.request r] }

/-- Consume the answer to an outstanding `Rx()`, if the environment has given it. -/
def onRx (k : RxAnswer → State → Result) (s : State) : Option Result :=
  match s.env.rx with
  | [] => none
  | a :: as => some (k a { s with env := { s.env with rx := as } })

/-- What can answer a `Tx` of `n` bytes: `Written(m)` with `m <= n`, or `Error` (10_state.md R34). -/
def TxAnswer.fits (n : Nat) : TxAnswer → Bool
  | .written m => m ≤ n
  | .error => true

/-- Consume the answer to an outstanding `Tx(str)`. What cannot answer it is no answer, and the request stays
outstanding (assumption log 17). -/
def onTx (str : List Byte) (k : TxAnswer → State → Result) (s : State) : Option Result :=
  match s.env.tx with
  | [] => none
  | a :: as => if a.fits str.length then some (k a { s with env := { s.env with tx := as } }) else none

/-- Consume the answer to an outstanding `Apply(cfg)`. -/
def onApply (k : ApplyAnswer → State → Result) (s : State) : Option Result :=
  match s.env.apply with
  | [] => none
  | a :: as => some (k a { s with env := { s.env with apply := as } })

/-- Consume the answer to an outstanding `Acquire()`. -/
def onAcquire (k : AcquireAnswer → State → Result) (s : State) : Option Result :=
  match s.env.acquire with
  | [] => none
  | a :: as => some (k a { s with env := { s.env with acquire := as } })

/-- Consume the answer to an outstanding `Parse(s)`. -/
def onParse (k : ParseAnswer → State → Result) (s : State) : Option Result :=
  match s.env.parse with
  | [] => none
  | a :: as => some (k a { s with env := { s.env with parse := as } })

/-- Consume the `Done` of an outstanding `Drain`, `Wait`, `Restore` or `Dump`. -/
def onDone (k : State → Result) (s : State) : Option Result :=
  match s.env.done with
  | 0 => none
  | n + 1 => some (k { s with env := { s.env with done := n } })

/-- How many answers the environment still gives. -/
def Env.answers (e : Env) : Nat :=
  e.rx.length + e.tx.length + e.apply.length + e.acquire.length + e.parse.length + e.done

/-! ## Ending a command (43_session.md R135) and failing (60_exceptions.md R154, R155, R162) -/

/-- The response codes of R155. -/
inductive ErrCode where
  | session
  | write
  | read
  | noId
  | invalidId
  | unsupportedBinary
  | nonprintable
  | bufferTooSmall
  | config
  | noData
  | badCmd
  deriving DecidableEq, Repr

/-- The number of a response code (R155). -/
def ErrCode.code : ErrCode → Int
  | .session => -1
  | .write => -2
  | .read => -3
  | .noId => -4
  | .invalidId => -5
  | .unsupportedBinary => -6
  | .nonprintable => -7
  | .bufferTooSmall => -8
  | .config => -9
  | .noData => -10
  | .badCmd => -11

/-- The response word of a failure: 32-bit two's complement (30_encoding.md R72). -/
def ErrCode.word (e : ErrCode) : Word := BitVec.ofInt 32 e.code

/-- Send `v` on the response port; CTL becomes IDLE (R135). REG_READ ends so, without writing RESULT. -/
def answer (v : Word) (s : State) : State :=
  { s with ctl := .idle, out := s.out ++ [.response v] }

/-- `return v` of every command but REG_READ: RESULT <- v, then the response (R135). -/
def respond (v : Word) (s : State) : State :=
  answer v { s with result := v }

/-- `fail E` (00_scope.md R13, R154, R162): the one way a command fails. The registers written before it stay, RESULT
gets the code, CTL becomes IDLE, the code is the response, and nothing else is saved or changed. -/
def fail (e : ErrCode) (s : State) : Result := .next (respond e.word s)

/-- `return v` with a length, a byte, a CRC value or 0. -/
def succeed (v : Nat) (s : State) : Result := .next (respond (BitVec.ofNat 32 v) s)

/-- A command word is taken only when CTL = IDLE (R135); the host has no other move (R48, R183). -/
def whenIdle (s : State) (k : State → Result) : Result :=
  if s.ctl = .idle then k s else .fault .commandInProgress

/-- The first test of every session command (R155): `if OPEN = 0: fail ERR_SESSION`. -/
def whenOpen (s : State) (k : State → Result) : Result :=
  if s.status.isOpen then k s else fail .session s

end Sys2Proof.Machine
end

