-- ==== Sys2Proof/Machine/Flags.lean ====
section
/-! DEFINITION. The words of STATUS and CONFIG, and the rules that compute a STATUS flag or a saturating counter. -/

namespace Sys2Proof.Machine

/-! ## Codes (10_state.md R22, R23) -/

/-- STATUS.PATH. -/
def Path.code : Path → BitVec 1
  | .p1 => 0
  | .d0 => 1

/-- STATUS.MODE. -/
def Mode.code : Mode → BitVec 3
  | .probe => 0
  | .modeA => 1
  | .modeB => 2
  | .modeC => 3
  | .modeD => 4
  | .modeE => 5

/-- STATUS.STYLE. -/
def Style.code : Style → BitVec 2
  | .unclassed => 0
  | .legacy => 1
  | .crc => 2

/-- STATUS.PARSE_STATUS. -/
def parseStatusCode : Option Verdict → BitVec 2
  | none => 0
  | some .incomplete => 1
  | some .accepted => 2
  | some .rejected => 3

/-- CONFIG.BAUD. -/
def Baud.code : Baud → BitVec 4
  | .unset => 0
  | .b300 => 1
  | .b600 => 2
  | .b1200 => 3
  | .b2400 => 4
  | .b4800 => 5
  | .b9600 => 6
  | .b19200 => 7
  | .b115200 => 8

/-- CONFIG.CSIZE. -/
def CharSize.code : CharSize → BitVec 1
  | .seven => 0
  | .eight => 1

/-- CONFIG.PARITY. -/
def Parity.code : Parity → BitVec 2
  | .noParity => 0
  | .even => 1

/-! ## Register words -/

/-- STATUS as REG_READ sees it (R22), bit 31 first. -/
def Status.word (f : Status) : Word :=
  (0 : BitVec 16) ++ bit f.dumped ++ bit f.signoffSent ++ bit f.ackSent ++ bit f.parseOk ++
    parseStatusCode f.parseStatus ++ bit f.crcPresent ++ bit f.crcMismatch ++ f.style.code ++ f.mode.code ++
    bit f.term ++ f.path.code ++ bit f.isOpen

/-- CONFIG as REG_READ sees it (R23), bit 31 first. -/
def TransportConfig.word (c : TransportConfig) : Word :=
  (0 : BitVec 8) ++ c.vtime ++ (0 : BitVec 6) ++ bit c.stopb ++ bit c.raw ++ bit c.clocal ++ c.parity.code ++
    c.csize.code ++ c.baud.code

/-! ## Saturating counters (R30) -/

/-- `min(v, 0x7FFFFFFF)` as a 31-bit counter. -/
def saturate31 (v : Nat) : BitVec 31 := BitVec.ofNat 31 (min v 0x7FFFFFFF)

/-- The FAILCNT update of `charge(k)` (41_framer.md R95). -/
def addFailures (k : Nat) (s : State) : State :=
  { s with failcnt := saturate31 (s.failcnt.toNat + k) }

/-- The budget test of `charge` (R95, R106): MF is not 0 and FAILCNT has reached it. -/
def budgetSpent (s : State) : Bool :=
  s.work.mf ≠ 0 && s.work.mf.toNat ≤ s.failcnt.toNat

/-! ## READ's flags -/

/-- The entry of READ (43_session.md R141): the per-read outcome is cleared. -/
def clearOutcome (s : State) : State :=
  { s with
    status := { s.status with
      style := .unclassed, crcMismatch := false, crcPresent := false, parseStatus := none, parseOk := false
      dumped := false }
    crcComputed := 0
    crcEmbedded := 0
    parseErrors := 0 }

/-- The register writes of parse_record (R149) for the outcome `o`. -/
def recordParse (o : ParseAnswer) (s : State) : State :=
  { s with
    status := { s.status with
      parseStatus := some o.status
      parseOk := o.status = .accepted && o.errors = 0
      crcPresent := if o.crc.isSome then true else s.status.crcPresent }
    crcEmbedded := o.crc.getD s.crcEmbedded
    parseErrors := saturate31 o.errors }

/-- The CRC compare (R144) against the computed CRC `c`. -/
def compareCrc (c : BitVec 16) (s : State) : State :=
  { s with status := { s.status with crcMismatch := s.status.crcPresent && s.crcEmbedded ≠ c } }

/-- The entry of D0_READ (42_d0_handshake.md R112). -/
def clearD0Flags (s : State) : State :=
  { s with status := { s.status with ackSent := false, signoffSent := false }, idLen := 0, lastLen := 0 }

end Sys2Proof.Machine
end

