-- ==== Sys2Proof/Machine/Operands.lean ====
section
/-! DEFINITION. Operand forms: the register index space, transport configurations, and the byte classes of the wire
formats. -/

namespace Sys2Proof.Machine

/-! ## The register index space (10_state.md R21) -/

/-- `register[index]` zero-extended (43_session.md R136); `none` for a reserved index. -/
def readRegister (index : BitVec 8) (s : State) : Option Word :=
  match index.toNat with
  | 0x00 => some s.status.word
  | 0x01 => some s.config.word
  | 0x02 => some (s.capacity.setWidth 32)
  | 0x03 => some (s.vtime.setWidth 32)
  | 0x04 => some (s.maxfail.setWidth 32)
  | 0x05 => some ((bit s.dumpEn).setWidth 32)
  | 0x06 => some (s.lastLen.setWidth 32)
  | 0x07 => some (s.crcComputed.setWidth 32)
  | 0x08 => some (s.crcEmbedded.setWidth 32)
  | 0x09 => some (s.failcnt.setWidth 32)
  | 0x0A => some (s.idLen.setWidth 32)
  | 0x0B => some (s.parseErrors.setWidth 32)
  | 0x0C => some s.result
  | 0x0D => some (s.bufcap.setWidth 32)
  | _ => none

/-- The register write of R137, keeping the register's low bits (30_encoding.md R69); `none` for a read-only or
reserved index. -/
def writeRegister (index : BitVec 8) (value : BitVec 16) (s : State) : Option State :=
  match index.toNat with
  | 0x02 => some { s with capacity := value }
  | 0x03 => some { s with vtime := value.extractLsb' 0 8 }
  | 0x04 => some { s with maxfail := value }
  | 0x05 => some { s with dumpEn := value.getLsbD 0 }
  | _ => none

/-! ## Transport configurations (R23) -/

/-- The P1 baseline (R23, R139): 115200 baud, 8 data bits, no parity, CLOCAL, RAW, one stop bit. -/
def p1Baseline (vtime : BitVec 8) : TransportConfig where
  baud := .b115200
  csize := .eight
  parity := .noParity
  clocal := true
  raw := true
  stopb := false
  vtime := vtime

/-- The D0 baseline over `c` (R23, R112, R140): 300 baud, 7 data bits, even parity, the rest unchanged. -/
def d0Baseline (c : TransportConfig) : TransportConfig :=
  { c with baud := .b300, csize := .seven, parity := .even }

/-- The P1 toggle (43_session.md R143): 115200 goes to 9600, anything else to 115200. -/
def toggled (c : TransportConfig) : TransportConfig :=
  { c with baud := if c.baud = .b115200 then .b9600 else .b115200 }

/-! ## Bytes on the wire -/

/-- `printable(b)` (00_scope.md R14). -/
def printable (b : Byte) : Bool := 0x20#8 ≤ b && b ≤ 0x7E#8

/-- `bad_body(b)` (42_d0_handshake.md R125). -/
def badBody (p : BodyCheck) (b : Byte) : Bool :=
  match p with
  | .intended => b < 0x20#8 || 0x7E#8 < b
  | .literal => b < 0x20#8 || b < 0x7E#8

/-- D0_BAUD rows 0 to 6 (30_encoding.md R80). -/
def baudOfRow : Nat → Baud
  | 0 => .b300
  | 1 => .b600
  | 2 => .b1200
  | 3 => .b2400
  | 4 => .b4800
  | 5 => .b9600
  | 6 => .b19200
  | _ => .unset

/-- The class column of the baud-id table (R80). -/
inductive BaudClass where
  | digit (b : Baud)
  | letter (b : Baud)
  | otherPrintable
  | invalid
  deriving DecidableEq, Repr

/-- The baud-id decode table (R80, 42_d0_handshake.md R120). -/
def classifyBaudId (c4 : Byte) : BaudClass :=
  if chZero ≤ c4 && c4 ≤ chSix then .digit (baudOfRow (c4.toNat - chZero.toNat))
  else if chA ≤ c4 && c4 ≤ chG then .letter (baudOfRow (c4.toNat - chA.toNat))
  else if printable c4 && c4 ≠ chSlash && c4 ≠ chBang then .otherPrintable
  else .invalid

/-- The sign-on request (30_encoding.md R78). -/
def signonBytes : List Byte := [chSlash, chQuery, chBang, chCr, chLf]

/-- The D0 ACK for baud-id byte `c4` (R82). -/
def ackBytes (c4 : Byte) : List Byte := [chAck, chZero, c4, chZero, chCr, chLf]

/-- The sign-off/break (R83). -/
def signoffBytes : List Byte := [chAck, 0x01, chB, chZero, 0x03, chQ]

end Sys2Proof.Machine
end

