-- ==== Sys2Proof/Machine/CrcUnit.lean ====
section
/-! DEFINITION. The CRC unit (40_crc.md). -/

namespace Sys2Proof.Machine

/-- One of the 8 repetitions of R88. -/
def crcBit (crc : BitVec 16) : BitVec 16 :=
  if crc.getLsbD 0 then (crc >>> 1) ^^^ 0xA001 else crc >>> 1

/-- The body of R88's loop for one byte. -/
def crcByte (crc : BitVec 16) (b : Byte) : BitVec 16 :=
  crcBit (crcBit (crcBit (crcBit (crcBit (crcBit (crcBit (crcBit (crc ^^^ b.setWidth 16))))))))

/-- CRC-16/ARC (R88). -/
def crc16Arc (s : List Byte) : BitVec 16 := s.foldl crcByte 0

/-- `CRC16_FN` (R87), a parameter: the default of R88 (general knowledge, G1) or any function (assumption log 3). -/
def crc16Fn : CrcFunction → List Byte → BitVec 16
  | .arc => crc16Arc
  | .free => Config.freeCrc16

/-- `STATUS.STYLE <- style; CRC_COMPUTED <- c`. -/
def setCrc (style : Style) (c : BitVec 16) (s : State) : State :=
  { s with status := { s.status with style := style }, crcComputed := c }

/-- `n >= k and BufRead(n-k) = '!'`: the test of R85, the bound first (R90). -/
def bangAt (k n : Nat) (s : State) : Bool × State :=
  if k ≤ n then
    let r := bufRead (n - k) s
    (r.1 = some chBang, r.2)
  else (false, s)

/-- The CRC-bearing case of R85 and R86: the CRC over `buf[0..n-6)`. -/
def crcBearing (n : Nat) (s : State) : BitVec 16 × State :=
  let r := bufSlice 0 (n - 6) s
  (crc16Fn s.params.crc r.1, setCrc .crc (crc16Fn s.params.crc r.1) r.2)

/-- The body of CRC_COMPUTE (R85) in an open session: the CRC answered, and the state with STYLE and CRC_COMPUTED
written. READ runs it too (43_session.md R142). -/
def crcBody (n : Nat) (s : State) : BitVec 16 × State :=
  if s.bufcap.toNat < n then (0, setCrc .unclassed 0 s)
  else
    let legacy := bangAt 3 n s
    if legacy.1 then (0, setCrc .legacy 0 legacy.2)
    else
      let bearing := bangAt 7 n legacy.2
      if bearing.1 then crcBearing n bearing.2
      else (0, setCrc .unclassed 0 bearing.2)

end Sys2Proof.Machine
end

