-- ==== Sys2Proof/Machine/Crc.lean ====
section
/-! DEFINITION. CRC_COMPUTE (40_crc.md R85). -/

namespace Sys2Proof.Machine

/-- CRC_COMPUTE (R85). -/
def execCrcCompute (n : BitVec 16) (s : State) : Result :=
  whenIdle s fun s => whenOpen s fun s =>
    let r := crcBody n.toNat s
    succeed r.1.toNat r.2

end Sys2Proof.Machine
end

