-- ==== Sys2Proof/Machine/ReadSteps.lean ====
section
/-! DEFINITION. What READ does after the framer or the D0 engine has run (43_session.md sections 4 and 5), and how a
framer or D0 body ends. -/

namespace Sys2Proof.Machine

/-- The end of a READ that delivered a telegram (R142, R145): the length is in LAST_LEN already, where the body put
it. -/
def readDone (s : State) : Result := succeed s.lastLen.toNat s

/-- Dump (R147), with the error tally `e` of the parse. -/
def dumpStep (e : Nat) (s : State) : Result :=
  if s.dumpS && 0 < e then .next (issue (.dump s.work.telegram) .rdDump s) else readDone s

/-- The `Dump` has been answered (R147). -/
def onDumped (s : State) : Result :=
  readDone { s with status := { s.status with dumped := true } }

/-- R142 after parse_record: the CRC_COMPUTE body with n = v, then the compare (R144). -/
def crcCheck (s : State) : State :=
  let r := crcBody s.lastLen.toNat s
  compareCrc r.1 r.2

/-- The `Parse` has been answered: parse_record (R149); on the P1 path the CRC and its compare (R142, R144), on the
D0 path neither (R145); then the dump. -/
def onParsed (o : ParseAnswer) (s : State) : Result :=
  let s1 := recordParse o s
  match s1.status.path with
  | .p1 => dumpStep o.errors (crcCheck s1)
  | .d0 => dumpStep o.errors s1

/-- Hand `buf[i..i+n)` to the grammar parser (R149, 10_state.md R36). -/
def parseStep (i n : Nat) (s : State) : Result :=
  let r := bufSlice i n s
  .next (issue (.parse r.1) .rdParse { r.2 with work := { r.2.work with telegram := r.1 } })

/-- The Probe baud fallback (R143). -/
def toggleStep (s : State) : Result :=
  if s.status.term && s.status.mode = .probe then .next (issue (.apply (toggled s.config)) .rdToggle s)
  else succeed 0 { s with lastLen := 0 }

/-- The toggle's `Apply` has been answered (R143). -/
def onToggled (a : ApplyAnswer) (s : State) : Result :=
  match a with
  | .ok => succeed 0 { s with config := toggled s.config, lastLen := 0 }
  | .fail => fail .config s

/-- The FRAME_READ body ends with a telegram of `v` bytes (41_framer.md R100, R102): the response of FRAME_READ, or the
parse of READ_P1 (R142). -/
def frameFound (v : BitVec 16) (s : State) : Result :=
  let s1 := { s with lastLen := v }
  if s.work.inRead then parseStep 0 v.toNat s1 else succeed v.toNat s1

/-- The FRAME_READ body ends with no telegram (R96, R97, R106): response 0, or the toggle of READ_P1 (R142). -/
def frameNone (s : State) : Result :=
  let s1 := { s with lastLen := 0 }
  if s.work.inRead then toggleStep s1 else succeed 0 s1

/-- The D0_READ body ends with a telegram proper of `v` bytes (42_d0_handshake.md R129): the response of D0_READ, or the
parse of READ_D0 (R145). -/
def d0Found (v : BitVec 16) (s : State) : Result :=
  let s1 := { s with lastLen := v }
  if s.work.inRead then parseStep s.idLen.toNat v.toNat s1 else succeed v.toNat s1

end Sys2Proof.Machine
end

