-- ==== Sys2Proof/Machine/D0Engine.lean ====
section
/-! DEFINITION. The D0 handshake engine's control states (42_d0_handshake.md). Each `on…` is what one answered request
does. -/

namespace Sys2Proof.Machine

/-! ## Wake-up and sign-on -/

/-- D0_WAKE: the `Tx` of one null byte (R113). -/
def sendNull (s : State) : State := issue (.tx [0x00]) .d0Wake s

/-- `goto D0_WAKE` (R113). -/
def gotoWake (s : State) : State := sendNull { s with work := { s.work with nulls := 0 } }

/-- The entry of D0_READ after the OPEN test (R112). -/
def d0Entry (s : State) : State :=
  let s1 := clearD0Flags s
  if s1.params.d0Rebase then
    if s1.status.term then issue (.apply (d0Baseline s1.config)) .d0Rebase s1
    else gotoWake { s1 with config := d0Baseline s1.config }
  else gotoWake s1

/-- The rebase `Apply` has been answered (R112). -/
def onRebased (a : ApplyAnswer) (s : State) : Result :=
  match a with
  | .ok => .next (gotoWake { s with config := d0Baseline s.config })
  | .fail => fail .config s

/-- D0_WAKE (R113): the next null, or after N_WAKE of them the `Drain` of R114. -/
def onWake (a : TxAnswer) (s : State) : Result :=
  if a = .written 1 then
    let s1 := { s with work := { s.work with nulls := s.work.nulls + 1 } }
    if s1.work.nulls < Config.nWake then .next (sendNull s1) else .next (issue .drain .d0WakeDrain s1)
  else fail .write s

/-- The wake-up has been drained (R114). -/
def onWakeDrained (s : State) : Result := .next (issue (.wait Config.tSettleMs) .d0Settle s)

/-- The settle time has passed (R114): `goto D0_SIGNON` (R115). -/
def onSettled (s : State) : Result := .next (issue (.tx signonBytes) .d0Signon s)

/-- Keep a `Tx` answer and drain; the answer is tested after the `Drain` (R115, R123, R128). -/
def drainThen (c : Ctl) (a : TxAnswer) (s : State) : Result :=
  .next (issue .drain c { s with work := { s.work with wrote := a } })

/-- D0_SIGNON after its `Drain` (R115): the count test, then `goto D0_AWAIT_ID`. -/
def onSignonDrained (s : State) : Result :=
  if s.work.wrote = .written 5 then .next (issue .rx .d0AwaitId s) else fail .write s

/-! ## Telegram capture and sign-off -/

/-- D0_READ completes (R129). -/
def d0Complete (s : State) : Result := d0Found (s.work.len - s.idLen) s

/-- D0_SIGNOFF (R128). -/
def gotoSignoff (s : State) : Result :=
  if s.status.term && s.status.mode ≠ .probe then .next (issue (.tx signoffBytes) .d0Signoff s) else d0Complete s

/-- D0_SIGNOFF after its `Drain` (R128). -/
def onSignoffDrained (s : State) : Result :=
  if s.work.wrote = .written 6 then d0Complete { s with status := { s.status with signoffSent := true } }
  else fail .write s

/-- The head of D0_CAPTURE's loop (R126): exhaustion is tested before each read. -/
def captureNext (s : State) : Result :=
  if s.work.len = s.bufcap then fail .bufferTooSmall s else .next (issue .rx .d0Capture s)

/-- `BufWrite(LEN, b); LEN <- LEN + 1`. -/
def storeByte (b : Byte) (s : State) : Result :=
  andThen (bufWrite s.work.len.toNat b s) fun s1 => .next { s1 with work := { s1.work with len := s1.work.len + 1 } }

/-- D0_CAPTURE (R126): the `'!'` test comes before the body test (R125). -/
def onCapture (a : RxAnswer) (s : State) : Result :=
  match a with
  | .error => fail .read s
  | .empty => fail .noData s
  | .byte b =>
    if b = chBang then andThen (storeByte chBang s) gotoSignoff
    else if badBody s.params.bodyCheck b then fail .nonprintable s
    else andThen (storeByte b s) captureNext

/-- `LEN <- ID_LEN; goto D0_CAPTURE` (R124). -/
def gotoCapture (s : State) : Result :=
  captureNext { s with work := { s.work with len := s.idLen } }

/-! ## ACK and baud switch -/

/-- CONFIG with BAUD <- NEWBAUD (R124). -/
def switched (s : State) : TransportConfig := { s.config with baud := s.work.newbaud }

/-- D0_BAUD (R124). -/
def gotoBaud (s : State) : Result :=
  if s.work.swq then
    if s.status.term then .next (issue (.apply (switched s)) .d0Baud s)
    else gotoCapture { s with config := switched s }
  else gotoCapture s

/-- The baud switch's `Apply` has been answered (R124). -/
def onSwitched (a : ApplyAnswer) (s : State) : Result :=
  match a with
  | .ok => gotoCapture { s with config := switched s }
  | .fail => fail .config s

/-- D0_ACK (R123). -/
def gotoAck (s : State) : Result :=
  if s.work.ackq then .next (issue (.tx (ackBytes s.work.c4)) .d0Ack s) else gotoBaud s

/-- D0_ACK after its `Drain` (R123). -/
def onAckDrained (s : State) : Result :=
  if s.work.wrote = .written 6 then gotoBaud { s with status := { s.status with ackSent := true } }
  else fail .write s

/-! ## Identification -/

/-- Mode determination (R122): the only place that writes MODE between OPEN and CLOSE. -/
def determineMode (m : Mode) (s : State) : Result :=
  gotoAck { s with status := { s.status with mode := m } }

/-- The protocol-mode check of the digit rows (R121). -/
def protocolMode (s : State) : Result :=
  if s.idLen.toNat ≤ 5 then fail .invalidId s
  else
    let c5 := bufRead 5 s
    if c5.1 = some chBackslash then
      if s.idLen.toNat ≤ 6 then fail .invalidId c5.2
      else
        let c6 := bufRead 6 c5.2
        if c6.1 = some chTwo then fail .unsupportedBinary c6.2 else determineMode .modeE c6.2
    else determineMode .modeC c5.2

/-- Classification of C4 (R120) by the table of 30_encoding.md R80. -/
def classifyStep (c4 : Byte) (s : State) : Result :=
  match classifyBaudId c4 with
  | .digit b =>
    protocolMode { s with work := { s.work with c4 := c4, newbaud := b, ackq := true, swq := true } }
  | .letter b =>
    determineMode .modeB { s with work := { s.work with c4 := c4, newbaud := b, ackq := false, swq := true } }
  | .otherPrintable =>
    determineMode .modeA { s with work := { s.work with c4 := c4, ackq := false, swq := false } }
  | .invalid => fail .invalidId { s with work := { s.work with c4 := c4 } }

/-- The baud-id fetch (R119): an offset outside the line or the buffer fails closed (20_memory.md R55). -/
def baudIdFetch (s : State) : Result :=
  if s.idLen.toNat ≤ 4 then fail .invalidId s
  else
    let c4 := bufRead 4 s
    match c4.1 with
    | some b => classifyStep b c4.2
    | none => fail .invalidId c4.2

/-- D0_ID_PARSE (R118): the line check, then the baud-id fetch. -/
def idParse (s : State) : Result :=
  if s.idLen.toNat < 3 then fail .invalidId s
  else
    let cr := bufRead (s.idLen.toNat - 2) s
    if cr.1 = some chCr then
      let lf := bufRead (s.idLen.toNat - 1) cr.2
      if lf.1 = some chLf then baudIdFetch lf.2 else fail .invalidId lf.2
    else fail .invalidId cr.2

/-- `ID_LEN <- LEN; goto D0_ID_PARSE` (R117). D0_ID_PARSE makes no exchange and is gone on from in the same move. -/
def idLineEnds (s : State) : Result := idParse { s with idLen := s.work.len, ctl := .d0IdParse }

/-- The head of D0_ID_READ's loop (R117). -/
def idReadNext (s : State) : Result :=
  if s.work.len < s.bufcap then .next (issue .rx .d0IdRead s) else idLineEnds s

/-- D0_AWAIT_ID (R116). -/
def onAwaitId (a : RxAnswer) (s : State) : Result :=
  match a with
  | .error => fail .read s
  | .empty => fail .noId s
  | .byte b =>
    if b = chSlash then
      andThen (bufWrite 0 chSlash s) fun s1 => idReadNext { s1 with work := { s1.work with len := 1 } }
    else fail .noId s

/-- D0_ID_READ (R117). -/
def onIdRead (a : RxAnswer) (s : State) : Result :=
  match a with
  | .error => fail .read s
  | .empty => idLineEnds s
  | .byte b => andThen (storeByte b s) fun s1 => if b = chLf then idLineEnds s1 else idReadNext s1

end Sys2Proof.Machine
end

