-- ==== Sys2Proof/Machine/FramerEngine.lean ====
section
/-! DEFINITION. The telegram framer's control states (41_framer.md). Each `on…` is what one answered `Rx()` does. -/

namespace Sys2Proof.Machine

/-- `goto FR_SEARCH`: its `Rx()` (R96). -/
def gotoSearch (s : State) : State := issue .rx .frSearch s

/-- `goto FR_ACCUM`: its `Rx()` (R97). -/
def gotoAccum (s : State) : State := issue .rx .frAccum s

/-- `goto FR_TAIL2`: the read of T1 (R99). -/
def gotoTail2 (s : State) : State :=
  issue .rx .frTail2 { s with work := { s.work with tail := [], got := 0 } }

/-- `goto FR_TAIL4`: the read of T3 (R102). -/
def gotoTail4 (s : State) : State := issue .rx .frTail4 s

/-- `charge(k); goto FR_SEARCH` (R95, R98, R103): the budget is tested after the charge and at no other time; when it is
spent the body ends with no telegram (R106). -/
def chargeThenSearch (k : Nat) (s : State) : Result :=
  let s1 := addFailures k s
  if budgetSpent s1 then frameNone s1 else .next (gotoSearch s1)

/-- The body of FRAME_READ after the OPEN test (R95). -/
def frameEntry (s : State) : State :=
  gotoSearch { s with failcnt := 0, work := { s.work with mf := s.maxfail, len := 0 } }

/-- FR_SEARCH (R96). -/
def onSearch (a : RxAnswer) (s : State) : Result :=
  match a with
  | .byte b =>
    if b = chSlash then
      andThen (bufWrite 0 chSlash s) fun s1 => .next (gotoAccum { s1 with work := { s1.work with len := 1 } })
    else if s.params.chargeSearch then chargeThenSearch 1 s
    else .next (gotoSearch s)
  | .empty => frameNone s
  | .error => frameNone s

/-- Overflow (R98). -/
def overflow (s : State) : Result :=
  chargeThenSearch s.work.len.toNat { s with work := { s.work with len := 0 } }

/-- The rest of FR_ACCUM (R97) once byte `b` is stored and LEN counts it. -/
def afterStore (b : Byte) (s : State) : Result :=
  if b = chBang then .next (gotoTail2 s)
  else if s.work.len = s.bufcap then overflow s
  else .next (gotoAccum s)

/-- FR_ACCUM (R97). -/
def onAccum (a : RxAnswer) (s : State) : Result :=
  match a with
  | .byte b =>
    andThen (bufWrite s.work.len.toNat b s) fun s1 =>
      afterStore b { s1 with work := { s1.work with len := s1.work.len + 1 } }
  | .empty => frameNone s
  | .error => frameNone s

/-- A tail probe byte: a byte, or NONE when the read answered Empty or Error (R99, 10_state.md R32). -/
def probeOf : RxAnswer → Option Byte
  | .byte b => some b
  | .empty => none
  | .error => none

/-- The count of tail reads that answered Byte (R99, R102). -/
def countBytes (t : List (Option Byte)) : Nat := (t.filter Option.isSome).length

/-- Invalid candidate (R103). -/
def invalidCandidate (s : State) : Result :=
  chargeThenSearch (s.work.len.toNat + s.work.got) { s with work := { s.work with len := 0 } }

/-- Accept the candidate with the tail bytes `t` (R100, R102). -/
def acceptTail (t : List Byte) (s : State) : Result :=
  let len := s.work.len + BitVec.ofNat 16 t.length
  andThen (bufWriteAll s.work.len.toNat t s) fun s1 => frameFound len { s1 with work := { s1.work with len := len } }

/-- The legacy check (R100), reached with T1 = `'\r'`. -/
def legacyCheck (s : State) : Result :=
  match s.work.tail with
  | [_, some t2] => if s.work.len.toNat + 2 ≤ s.bufcap.toNat then acceptTail [chCr, t2] s else invalidCandidate s
  | _ => invalidCandidate s

/-- FR_TAIL2 once both reads have been answered (R99). -/
def tail2Done (s : State) : Result :=
  if s.work.tail.head? = some (some chCr) then legacyCheck s else .next (gotoTail4 s)

/-- FR_TAIL2 (R99): both reads are always issued. -/
def onTail2 (a : RxAnswer) (s : State) : Result :=
  let t := s.work.tail ++ [probeOf a]
  let s1 := { s with work := { s.work with tail := t, got := countBytes t } }
  if t.length < 2 then .next (issue .rx .frTail2 s1) else tail2Done s1

/-- FR_TAIL4 once all four reads have been answered (R102). -/
def tail4Done (s : State) : Result :=
  match s.work.tail with
  | [some t1, some t2, some t3, some t4, some t5, some t6] =>
    if t5 = chCr ∧ s.work.len.toNat + 6 ≤ s.bufcap.toNat then acceptTail [t1, t2, t3, t4, t5, t6] s
    else invalidCandidate s
  | _ => invalidCandidate s

/-- FR_TAIL4 (R102): all four reads are always issued (70_reset_and_hazards.md R179). -/
def onTail4 (a : RxAnswer) (s : State) : Result :=
  let t := s.work.tail ++ [probeOf a]
  let s1 := { s with work := { s.work with tail := t, got := countBytes t } }
  if t.length < 6 then .next (issue .rx .frTail4 s1) else tail4Done s1

end Sys2Proof.Machine
end

