-- ==== Sys2Proof/Machine/SessionEngine.lean ====
section
/-! DEFINITION. The session sub-steps of OPEN_P1, OPEN_D0 and CLOSE (43_session.md sections 3 and 4). -/

namespace Sys2Proof.Machine

/-- The configuration a session of path `p` ends up with (10_state.md R47, R139, R140). -/
def baseline (p : Path) (s : State) : TransportConfig :=
  match p with
  | .p1 => p1Baseline s.vtime
  | .d0 => d0Baseline (p1Baseline s.vtime)

/-- `open_common(cfg, t, p)` (R139, 10_state.md R47). -/
def openCommon (cfg : TransportConfig) (t : Bool) (p : Path) (s : State) : State :=
  { s with
    config := cfg
    status := { Status.reset with isOpen := true, path := p, term := t }
    bufcap := s.capacity
    dumpS := s.dumpEn
    buf := []
    lastLen := 0
    crcComputed := 0
    crcEmbedded := 0
    failcnt := 0
    idLen := 0
    parseErrors := 0 }

/-- The session opens: response 0 (R139, R140). -/
def opened (t : Bool) (p : Path) (s : State) : Result := succeed 0 (openCommon (baseline p s) t p s)

/-- The entry of OPEN_P1 and OPEN_D0 (R139, R140): already open, then CAPACITY, then `Acquire` (60_exceptions.md
R160). -/
def openEntry (p : Path) (s : State) : Result :=
  if s.status.isOpen then fail .session s
  else if s.capacity.toNat < Config.minCapacity then fail .session s
  else .next (issue .acquire (.opAcquire p) s)

/-- `Acquire` has been answered (R139): a terminal gets the P1 baseline applied, another transport gets no `Apply`
(10_state.md R37). -/
def onAcquired (p : Path) (a : AcquireAnswer) (s : State) : Result :=
  match a with
  | .fail => fail .session s
  | .ok true => .next (issue (.apply (p1Baseline s.vtime)) (.opApplyP1 p) s)
  | .ok false => opened false p s

/-- A baseline `Apply` failed: `Restore(); fail ERR_CONFIG` (R139, R140). -/
def openFailed (s : State) : Result := .next (issue .restore .opRestore s)

/-- The P1 baseline `Apply` has been answered (R139); OPEN_D0 goes on to its own baseline (R140). -/
def onAppliedP1 (p : Path) (a : ApplyAnswer) (s : State) : Result :=
  match a, p with
  | .fail, _ => openFailed s
  | .ok, .p1 => opened true .p1 s
  | .ok, .d0 => .next (issue (.apply (d0Baseline (p1Baseline s.vtime))) .opApplyD0 s)

/-- The D0 baseline `Apply` has been answered (R140). -/
def onAppliedD0 (a : ApplyAnswer) (s : State) : Result :=
  match a with
  | .fail => openFailed s
  | .ok => opened true .d0 s

/-- The `Restore` of a failed OPEN has been answered: the session was not opened (R139, R140). -/
def onOpenRestored (s : State) : Result := fail .config s

/-- The register writes of CLOSE (R146). -/
def closeSession (s : State) : State :=
  { s with
    status := { s.status with isOpen := false, path := .p1, term := false, mode := .probe }
    bufcap := 0
    dumpS := false
    buf := []
    config := TransportConfig.reset }

/-- CLOSE ends (R146). -/
def closed (s : State) : Result := succeed 0 (closeSession s)

/-- The entry of CLOSE after the OPEN test (R146): `Restore` for a terminal. -/
def closeEntry (s : State) : Result :=
  if s.status.term then .next (issue .restore .clRestore s) else closed s

end Sys2Proof.Machine
end

