-- ==== Sys2Proof/Machine/Sequencer.lean ====
section
/-! DEFINITION. One environment exchange, and running a command as far as the environment has answered. -/

namespace Sys2Proof.Machine

/-- One step inside a command (00_scope.md R6, 20_memory.md R60): consume the answer to the one outstanding request and
go on to the next request or to the response. D0_ID_PARSE has no request outstanding and goes on without an answer.
`none` when CTL is IDLE or the answer has not come: the block waits (10_state.md R48). -/
def move (s : State) : Option Result :=
  match s.ctl with
  | .idle => none
  | .frSearch => onRx onSearch s
  | .frAccum => onRx onAccum s
  | .frTail2 => onRx onTail2 s
  | .frTail4 => onRx onTail4 s
  | .d0Rebase => onApply onRebased s
  | .d0Wake => onTx [0x00] onWake s
  | .d0WakeDrain => onDone onWakeDrained s
  | .d0Settle => onDone onSettled s
  | .d0Signon => onTx signonBytes (drainThen .d0SignonDrain) s
  | .d0SignonDrain => onDone onSignonDrained s
  | .d0AwaitId => onRx onAwaitId s
  | .d0IdRead => onRx onIdRead s
  | .d0IdParse => some (idParse s)
  | .d0Ack => onTx (ackBytes s.work.c4) (drainThen .d0AckDrain) s
  | .d0AckDrain => onDone onAckDrained s
  | .d0Baud => onApply onSwitched s
  | .d0Capture => onRx onCapture s
  | .d0Signoff => onTx signoffBytes (drainThen .d0SignoffDrain) s
  | .d0SignoffDrain => onDone onSignoffDrained s
  | .opAcquire p => onAcquire (onAcquired p) s
  | .opApplyP1 p => onApply (onAppliedP1 p) s
  | .opApplyD0 => onApply onAppliedD0 s
  | .opRestore => onDone onOpenRestored s
  | .rdToggle => onApply onToggled s
  | .rdParse => onParse onParsed s
  | .rdDump => onDone onDumped s
  | .clRestore => onDone closed s

/-- At most `k` moves. -/
def run : Nat → State → Result
  | 0, s => .next s
  | k + 1, s =>
    match move s with
    | none => .next s
    | some r => andThen r (run k)

/-- Run the command in progress until it ends or waits for an answer the environment has not given. Each move consumes
one answer, but for one that starts in D0_ID_PARSE, and no move ends there: so the answers left bound the moves. -/
def advance (s : State) : Result := run (s.env.answers + 1) s

end Sys2Proof.Machine
end

