-- ==== Sys2Proof/Machine/D0.lean ====
section
/-! DEFINITION. D0_READ (42_d0_handshake.md R111). -/

namespace Sys2Proof.Machine

/-- D0_READ (R111, R112), standalone. -/
def execD0Read (s : State) : Result :=
  whenIdle s fun s => whenOpen s fun s =>
    advance (d0Entry { s with work := { s.work with inRead := false } })

end Sys2Proof.Machine
end

