-- ==== Sys2Proof/Machine/Framer.lean ====
section
/-! DEFINITION. FRAME_READ (41_framer.md R94). -/

namespace Sys2Proof.Machine

/-- FRAME_READ (R94, R95), standalone. -/
def execFrameRead (s : State) : Result :=
  whenIdle s fun s => whenOpen s fun s =>
    advance (frameEntry { s with work := { s.work with inRead := false } })

end Sys2Proof.Machine
end

