-- ==== Sys2Proof/Machine/HostAccess.lean ====
section
/-! DEFINITION. The host access commands REG_READ, REG_WRITE and BUF_READ (43_session.md section 2). -/

namespace Sys2Proof.Machine

/-- REG_READ (R136). RESULT is not written, on a reserved index either (assumption log 15). -/
def execRegRead (reg : BitVec 8) (s : State) : Result :=
  whenIdle s fun s =>
    match readRegister reg s with
    | some v => .next (answer v s)
    | none => .next (answer ErrCode.badCmd.word s)

/-- REG_WRITE (R137). -/
def execRegWrite (reg : BitVec 8) (value : BitVec 16) (s : State) : Result :=
  whenIdle s fun s =>
    match writeRegister reg value s with
    | some s1 => succeed 0 s1
    | none => fail .badCmd s

/-- BUF_READ (R138). -/
def execBufRead (offset : BitVec 16) (s : State) : Result :=
  whenIdle s fun s => whenOpen s fun s =>
    let r := bufRead offset.toNat s
    match r.1 with
    | some b => succeed b.toNat r.2
    | none => fail .badCmd r.2

end Sys2Proof.Machine
end

