-- ==== Sys2Proof/Machine/Session.lean ====
section
/-! DEFINITION. The session commands OPEN_P1, OPEN_D0, READ and CLOSE (43_session.md sections 3 and 4). -/

namespace Sys2Proof.Machine

/-- OPEN_P1 (R139). -/
def execOpenP1 (s : State) : Result :=
  whenIdle s fun s => andThen (openEntry .p1 s) advance

/-- OPEN_D0 (R140). -/
def execOpenD0 (s : State) : Result :=
  whenIdle s fun s => andThen (openEntry .d0 s) advance

/-- The entry of READ after the OPEN test (R141): the outcome is cleared, and PATH, not MODE, chooses the body
(90_conflicts.md C1). -/
def readEntry (s : State) : State :=
  let s1 := clearOutcome { s with work := { s.work with inRead := true } }
  match s1.status.path with
  | .p1 => frameEntry s1
  | .d0 => d0Entry s1

/-- READ (R141). -/
def execRead (s : State) : Result :=
  whenIdle s fun s => whenOpen s fun s => advance (readEntry s)

/-- CLOSE (R146). -/
def execClose (s : State) : Result :=
  whenIdle s fun s => whenOpen s fun s => andThen (closeEntry s) advance

end Sys2Proof.Machine
end

