-- ==== Sys2Proof/Machine/Dispatch.lean ====
section
/-! DEFINITION. What each command does. -/

namespace Sys2Proof.Machine

def exec (i : Instr) (s : State) : Host.Outcome State Fault Refusal :=
  match i with
  | .regRead reg => Sys2Proof.Machine.execRegRead reg s
  | .regWrite reg value => Sys2Proof.Machine.execRegWrite reg value s
  | .bufRead offset => Sys2Proof.Machine.execBufRead offset s
  | .crcCompute n => Sys2Proof.Machine.execCrcCompute n s
  | .frameRead => Sys2Proof.Machine.execFrameRead s
  | .d0Read => Sys2Proof.Machine.execD0Read s
  | .openP1 => Sys2Proof.Machine.execOpenP1 s
  | .openD0 => Sys2Proof.Machine.execOpenD0 s
  | .read => Sys2Proof.Machine.execRead s
  | .close => Sys2Proof.Machine.execClose s

end Sys2Proof.Machine
end

