-- ==== Sys2Proof/Machine/Fetch.lean ====
section
/-! DEFINITION. Taking a command word from the command port. -/

namespace Sys2Proof.Machine

/-- The word the host sends next and the state with that word taken; `none` while the host sends nothing
(43_session.md R135, 70_reset_and_hazards.md R171). -/
def takeCommand (s : State) : Option (Word × State) :=
  match s.env.host with
  | [] => none
  | w :: ws => some (w, { s with env := { s.env with host := ws } })

/-- The answer to an illegal word (30_encoding.md R70): ERR_BADCMD in RESULT and on the response port, nothing else. -/
def illegalWord (s : State) : Result := fail .badCmd s

/-- The state in which the host sends `w` next and the block is IDLE, so that the next step takes it. -/
def offerCommand (w : Word) (s : State) : State :=
  { s with ctl := .idle, env := { s.env with host := w :: s.env.host } }

end Sys2Proof.Machine
end

