-- ==== Sys2Proof/Machine/Step.lean ====
section
/-! DEFINITION. One step of the machine: a command, or the command in progress going on. -/

namespace Sys2Proof.Machine

/-- When IDLE, take the next command word, decode it and run it (43_session.md R135); with no word sent, stay as it is
(70_reset_and_hazards.md R171). While a command is in progress take no word (R183) and go on as far as the environment
has answered (assumption log 6, 16). -/
def step (s : State) : Host.Outcome State Fault Refusal :=
  match s.ctl with
  | .idle =>
    match takeCommand s with
    | none => .next s
    | some (w, s1) =>
      match decode w with
      | .command i => exec i s1
      | .illegal _ => illegalWord s1
  | _ => advance s

/-- `s` with the command whose bits are `w` (numbered as spec/opcode_table.json numbers them) as the word the host sends
next and the block ready to take it. -/
def State.withFetchWord (s : State) (nbits w : Nat) : State :=
  offerCommand (BitVec.ofNat 32 (w % 2 ^ nbits)) s

end Sys2Proof.Machine
end

