-- ==== Sys2Proof/Safety.lean ====
section
/-! DEFINITION. The terms the statements use: the outstanding request, the invariant, telegrams and identification lines
on the wire, and the exchange sequences of the D0 handshake. -/

namespace Sys2Proof.Machine

/-! ## The outstanding request -/

/-- The request whose answer CTL waits for (10_state.md R32, 00_scope.md R12). -/
def outstanding (s : State) : Option Request :=
  match s.ctl with
  | .idle => none
  | .frSearch => some .rx
  | .frAccum => some .rx
  | .frTail2 => some .rx
  | .frTail4 => some .rx
  | .d0Rebase => some (.apply (d0Baseline s.config))
  | .d0Wake => some (.tx [0x00])
  | .d0WakeDrain => some .drain
  | .d0Settle => some (.wait 2700)
  | .d0Signon => some (.tx signonBytes)
  | .d0SignonDrain => some .drain
  | .d0AwaitId => some .rx
  | .d0IdRead => some .rx
  | .d0IdParse => none
  | .d0Ack => some (.tx (ackBytes s.work.c4))
  | .d0AckDrain => some .drain
  | .d0Baud => some (.apply (switched s))
  | .d0Capture => some .rx
  | .d0Signoff => some (.tx signoffBytes)
  | .d0SignoffDrain => some .drain
  | .opAcquire _ => some .acquire
  | .opApplyP1 _ => some (.apply (p1Baseline s.vtime))
  | .opApplyD0 => some (.apply (d0Baseline (p1Baseline s.vtime)))
  | .opRestore => some .restore
  | .rdToggle => some (.apply (toggled s.config))
  | .rdParse => some (.parse s.work.telegram)
  | .rdDump => some (.dump s.work.telegram)
  | .clRestore => some .restore

/-- Whether the environment has given the answer to request `r`. -/
def Env.answered (e : Env) (r : Request) : Bool :=
  match r with
  | .rx => !e.rx.isEmpty
  | .tx str =>
    match e.tx with
    | [] => false
    | a :: _ => a.fits str.length
  | .apply _ => !e.apply.isEmpty
  | .acquire => !e.acquire.isEmpty
  | .parse _ => !e.parse.isEmpty
  | .drain => 0 < e.done
  | .wait _ => 0 < e.done
  | .restore => 0 < e.done
  | .dump _ => 0 < e.done

/-- The answers of `e`, and after them those of `f`; the host's words stay. -/
def Env.followedBy (e f : Env) : Env where
  host := e.host
  rx := e.rx ++ f.rx
  tx := e.tx ++ f.tx
  apply := e.apply ++ f.apply
  acquire := e.acquire ++ f.acquire
  parse := e.parse ++ f.parse
  done := e.done + f.done

/-- `s` with more answers to come. -/
def State.withMoreAnswers (s : State) (f : Env) : State := { s with env := s.env.followedBy f }

/-- An open session with no command in progress. -/
abbrev Ready (s : State) : Prop := s.ctl = .idle ∧ s.status.isOpen = true

/-- The registers at indices 0x00 to 0x0D, as words (10_state.md R21, 43_session.md R136). -/
def registerFile (s : State) : List Word :=
  [s.status.word, s.config.word, s.capacity.setWidth 32, s.vtime.setWidth 32, s.maxfail.setWidth 32,
    if s.dumpEn then 1 else 0, s.lastLen.setWidth 32, s.crcComputed.setWidth 32, s.crcEmbedded.setWidth 32,
    s.failcnt.setWidth 32, s.idLen.setWidth 32, s.parseErrors.setWidth 32, s.result, s.bufcap.setWidth 32]

/-- A control state of OPEN_P1, OPEN_D0 or CLOSE. -/
def Ctl.opensOrCloses : Ctl → Bool
  | .opAcquire _ => true
  | .opApplyP1 _ => true
  | .opApplyD0 => true
  | .opRestore => true
  | .clRestore => true
  | _ => false

/-- A control state of the D0 engine. -/
def Ctl.runsD0 : Ctl → Bool
  | .d0Rebase | .d0Wake | .d0WakeDrain | .d0Settle | .d0Signon | .d0SignonDrain | .d0AwaitId | .d0IdRead
  | .d0IdParse | .d0Ack | .d0AckDrain | .d0Baud | .d0Capture | .d0Signoff | .d0SignoffDrain => true
  | _ => false

/-! ## The invariant -/

/-- The first `n` bytes of a candidate (41_framer.md R96, R97): a `'/'` first, every byte written, no `'!'`. -/
def Candidate (m : Memory) (n : Nat) : Prop :=
  m.read 0 = some chSlash ∧ ∀ i < n, ∃ b, m.read i = some b ∧ b ≠ chBang

/-- A candidate that has just seen its `'!'` (R97), the `n`-th byte. -/
def Ended (m : Memory) (n : Nat) : Prop :=
  2 ≤ n ∧ Candidate m (n - 1) ∧ m.read (n - 1) = some chBang

/-- The identification line is in the buffer, LEN and ID_LEN count it (42_d0_handshake.md R117). -/
def LineTaken (s : State) : Prop := 0 < s.idLen ∧ s.idLen = s.work.len ∧ s.work.len ≤ s.bufcap

/-- What holds in each control state. LEN is within BUFCAP (00_scope.md R8) from where a command first writes it; before
that it is undefined (10_state.md R32). -/
def CtlInv (s : State) : Prop :=
  match s.ctl with
  | .idle => True
  | .frSearch => s.status.isOpen = true ∧ s.work.len = 0
  | .frAccum => s.status.isOpen = true ∧ 0 < s.work.len ∧ s.work.len < s.bufcap ∧ Candidate s.buf s.work.len.toNat
  | .frTail2 =>
    s.status.isOpen = true ∧ s.work.len ≤ s.bufcap ∧ Ended s.buf s.work.len.toNat ∧ s.work.tail.length < 2
  | .frTail4 =>
    s.status.isOpen = true ∧ s.work.len ≤ s.bufcap ∧ Ended s.buf s.work.len.toNat ∧ 2 ≤ s.work.tail.length ∧
      s.work.tail.length < 6 ∧ s.work.tail.head? ≠ some (some chCr)
  | .d0Rebase => s.status.isOpen = true ∧ s.status.term = true
  | .d0Wake => s.status.isOpen = true ∧ s.work.nulls < 65
  | .d0WakeDrain => s.status.isOpen = true
  | .d0Settle => s.status.isOpen = true
  | .d0Signon => s.status.isOpen = true
  | .d0SignonDrain => s.status.isOpen = true
  | .d0AwaitId => s.status.isOpen = true
  | .d0IdRead => s.status.isOpen = true ∧ 0 < s.work.len ∧ s.work.len < s.bufcap
  | .d0IdParse => s.status.isOpen = true ∧ LineTaken s
  | .d0Ack => s.status.isOpen = true ∧ s.status.mode ≠ .probe ∧ LineTaken s
  | .d0AckDrain => s.status.isOpen = true ∧ s.status.mode ≠ .probe ∧ LineTaken s
  | .d0Baud =>
    s.status.isOpen = true ∧ s.status.term = true ∧ s.status.mode ≠ .probe ∧ LineTaken s
  | .d0Capture =>
    s.status.isOpen = true ∧ s.status.mode ≠ .probe ∧ s.idLen ≤ s.work.len ∧ s.work.len < s.bufcap
  | .d0Signoff =>
    s.status.isOpen = true ∧ s.status.term = true ∧ s.status.mode ≠ .probe ∧ s.idLen < s.work.len ∧
      s.work.len ≤ s.bufcap
  | .d0SignoffDrain =>
    s.status.isOpen = true ∧ s.status.term = true ∧ s.status.mode ≠ .probe ∧ s.idLen < s.work.len ∧
      s.work.len ≤ s.bufcap
  | .opAcquire _ => s.status.isOpen = false ∧ 8 ≤ s.capacity.toNat
  | .opApplyP1 _ => s.status.isOpen = false ∧ 8 ≤ s.capacity.toNat
  | .opApplyD0 => s.status.isOpen = false ∧ 8 ≤ s.capacity.toNat
  | .opRestore => s.status.isOpen = false
  | .rdToggle =>
    s.status.isOpen = true ∧ s.status.term = true ∧ s.status.mode = .probe ∧ s.lastLen = 0 ∧ s.work.len ≤ s.bufcap
  | .rdParse => s.status.isOpen = true ∧ s.lastLen ≤ s.work.len ∧ s.work.len ≤ s.bufcap
  | .rdDump => s.status.isOpen = true ∧ s.dumpS = true ∧ s.lastLen ≤ s.work.len ∧ s.work.len ≤ s.bufcap
  | .clRestore => s.status.isOpen = true ∧ s.status.term = true

/-- The invariant of the block. -/
structure StateInv (s : State) : Prop where
  /-- The buffer is in its canonical form. -/
  bufCanonical : s.buf.wf
  /-- Every written cell lies below BUFCAP (10_state.md R31). -/
  bufBounded : ∀ c ∈ s.buf, c.1 < s.bufcap.toNat
  /-- MODE 4 (ModeD) is never written (R22, 93_implementation_defined.md U13). -/
  modeLegal : s.status.mode ≠ .modeD
  /-- CONFIG.STOPB is always 0 (R23). -/
  stopBit : s.config.stopb = false
  /-- An open session has a buffer of at least 8 bytes (R24, 43_session.md R139). -/
  openCapacity : s.status.isOpen = true → 8 ≤ s.bufcap.toNat
  /-- With no session open there is no buffer and no configuration, and the session latches are clear (R30, R42, R46,
  43_session.md R146). -/
  closedClear : s.status.isOpen = false →
    s.bufcap = 0 ∧ s.buf = [] ∧ s.dumpS = false ∧ s.config = TransportConfig.reset ∧ s.status.path = .p1 ∧
      s.status.term = false ∧ s.status.mode = .probe
  /-- What holds in each control state. -/
  control : CtlInv s

/-! ## Telegrams on the wire -/

/-- The answers to `Rx()` that deliver the bytes `l`. -/
def rxBytes (l : List Byte) : List RxAnswer := l.map .byte

/-- The requests of `n` reads. -/
def rxRequests (n : Nat) : List Output := List.replicate n (.request .rx)

/-- A telegram as the framer checks it (30_encoding.md R75, R76; 41_framer.md R97, R100, R102): `'/'`, bytes other than
`'!'`, `'!'`, and a Legacy or a CRC-bearing tail. -/
inductive Framed : List Byte → Prop where
  | legacy (body : List Byte) (t2 : Byte) (h : chBang ∉ body) :
    Framed (chSlash :: body ++ [chBang, chCr, t2])
  | crcBearing (body : List Byte) (t1 t2 t3 t4 t6 : Byte) (h : chBang ∉ body) (ht : t1 ≠ chCr) :
    Framed (chSlash :: body ++ [chBang, t1, t2, t3, t4, chCr, t6])

/-- The STYLE and the CRC that CRC_COMPUTE gives for a telegram of written bytes, with CRC16_FN as `f` says (40_crc.md
R85). -/
def classOf (f : CrcFunction) (tel : List Byte) : Style × BitVec 16 :=
  if 3 ≤ tel.length ∧ tel[tel.length - 3]? = some chBang then (.legacy, 0)
  else if 7 ≤ tel.length ∧ tel[tel.length - 7]? = some chBang then (.crc, crc16Fn f (tel.take (tel.length - 6)))
  else (.unclassed, 0)

/-- The buffer holds `l` at offsets `i, i+1, ...`. -/
def Holds (m : Memory) (i : Nat) (l : List Byte) : Prop :=
  ∀ j (h : j < l.length), m.read (i + j) = some l[j]

/-- Outside offsets `i..i+n-1` the buffers read alike. -/
def SameOutside (m m' : Memory) (i n : Nat) : Prop :=
  ∀ a, ¬ (i ≤ a ∧ a < i + n) → m'.read a = m.read a

/-- FAILCNT after `n` bytes discarded in FR_SEARCH (41_framer.md R96). -/
def searchCharge (p : Params) (n : Nat) : BitVec 31 :=
  if p.chargeSearch then saturate31 n else 0

/-- The budget is not reached by `n` bytes discarded in FR_SEARCH (R95, R96). -/
def searchWithinBudget (p : Params) (maxfail : BitVec 16) (n : Nat) : Prop :=
  p.chargeSearch = true → maxfail = 0 ∨ n < maxfail.toNat

/-- How many of the answers delivered a byte. -/
def byteCount (l : List RxAnswer) : Nat := (l.filterMap probeOf).length

/-- The answers to the tail reads of a candidate of `len` bytes that do not complete a telegram (R99 to R103). -/
inductive TailRejected (cap len : Nat) : List RxAnswer → Prop
  | legacy (a : RxAnswer) (h : (∃ b, a = .byte b) → cap < len + 2) : TailRejected cap len [.byte chCr, a]
  | crcBearing (a1 a2 a3 a4 a5 a6 : RxAnswer) (h1 : a1 ≠ .byte chCr)
    (h : (∀ a ∈ [a1, a2, a3, a4, a5, a6], ∃ b, a = .byte b) → a5 = .byte chCr → cap < len + 6) :
    TailRejected cap len [a1, a2, a3, a4, a5, a6]

/-- Answers that the framer discards in one piece, and what it charges for them: a byte while searching (R96), a
candidate that overflows (R98), a candidate whose tail fails (R103). -/
inductive DiscardedPiece (p : Params) (cap : Nat) : List RxAnswer → Nat → Prop
  | noise (b : Byte) (h : b ≠ chSlash) : DiscardedPiece p cap [.byte b] (if p.chargeSearch then 1 else 0)
  | overflow (body : List Byte) (h : chBang ∉ body) (hlen : body.length + 1 = cap) :
    DiscardedPiece p cap (rxBytes (chSlash :: body)) cap
  | badTail (body : List Byte) (tail : List RxAnswer) (h : chBang ∉ body) (hlen : body.length + 2 ≤ cap)
    (ht : TailRejected cap (body.length + 2) tail) :
    DiscardedPiece p cap (rxBytes (chSlash :: body ++ [chBang]) ++ tail) (body.length + 2 + byteCount tail)

/-- Answers that the framer discards piece by piece, and the sum it charges. -/
inductive Discarded (p : Params) (cap : Nat) : List RxAnswer → Nat → Prop
  | nil : Discarded p cap [] 0
  | cons {l m : List RxAnswer} {k n : Nat} (hl : DiscardedPiece p cap l k) (hm : Discarded p cap m n) :
    Discarded p cap (l ++ m) (k + n)

/-- The failure budget is not reached by a sum of `n` (R95). -/
def WithinBudget (maxfail : BitVec 16) (n : Nat) : Prop := maxfail = 0 ∨ n < maxfail.toNat

/-- Answers on which FRAME_READ finds no telegram, and the sum it charges: the stream goes quiet while searching or
inside a candidate (R107), or the budget is spent (R106). -/
inductive Fruitless (p : Params) (cap : Nat) (maxfail : BitVec 16) : List RxAnswer → Nat → Prop
  | quietSearching {junk : List RxAnswer} {n : Nat} (a : RxAnswer) (hj : Discarded p cap junk n)
    (hb : WithinBudget maxfail n) (ha : a = .empty ∨ a = .error) : Fruitless p cap maxfail (junk ++ [a]) n
  | quietAccumulating {junk : List RxAnswer} {n : Nat} (body : List Byte) (a : RxAnswer) (hj : Discarded p cap junk n)
    (hb : WithinBudget maxfail n) (h : chBang ∉ body) (hlen : body.length + 1 < cap) (ha : a = .empty ∨ a = .error) :
    Fruitless p cap maxfail (junk ++ rxBytes (chSlash :: body) ++ [a]) n
  | budgetSpent {junk piece : List RxAnswer} {n k : Nat} (hj : Discarded p cap junk n)
    (hp : DiscardedPiece p cap piece k) (hm : maxfail ≠ 0) (hb : n < maxfail.toNat) (hk : maxfail.toNat ≤ n + k) :
    Fruitless p cap maxfail (junk ++ piece) (n + k)

/-! ## The D0 handshake -/

/-- An identification line (30_encoding.md R79): a `'/'`, text, then `'\r' '\n'`, and no `'\n'` before. -/
def IdLine (ident : List Byte) : Prop :=
  ∃ text, ident = chSlash :: text ++ [chCr, chLf] ∧ chLf ∉ text

/-- The rows of the baud-id table (30_encoding.md R80): baud-id byte of the digit row, of the letter row, rate. -/
def baudTable : List (Byte × Byte × Baud) :=
  [(0x30, 0x41, .b300), (0x31, 0x42, .b600), (0x32, 0x43, .b1200), (0x33, 0x44, .b2400), (0x34, 0x45, .b4800),
    (0x35, 0x46, .b9600), (0x36, 0x47, .b19200)]

/-- What an identification line negotiates: the mode, the rate to switch to (`none`: unchanged, no switch) and
whether the ACK is sent. -/
structure Terms where
  mode : Mode
  baud : Option Baud
  ack : Bool
  deriving DecidableEq, Repr

/-- The outcome of identification (R80, R81). -/
inductive Negotiated where
  | terms (t : Terms)
  | invalid
  | binary
  deriving DecidableEq, Repr

/-- The identification line read by the tables of R80 and R81. -/
def negotiate (ident : List Byte) : Negotiated :=
  match ident[4]? with
  | none => .invalid
  | some c4 =>
    match baudTable.find? (fun r => r.1 = c4) with
    | some r =>
      if ident[5]? = some chBackslash then
        if ident[6]? = some chTwo then .binary else .terms { mode := .modeE, baud := some r.2.2, ack := true }
      else .terms { mode := .modeC, baud := some r.2.2, ack := true }
    | none =>
      match baudTable.find? (fun r => r.2.1 = c4) with
      | some r => .terms { mode := .modeB, baud := some r.2.2, ack := false }
      | none =>
        if 0x20#8 ≤ c4 ∧ c4 ≤ 0x7E#8 ∧ c4 ≠ chSlash ∧ c4 ≠ chBang then
          .terms { mode := .modeA, baud := none, ack := false }
        else .invalid

/-- What D0_ID_READ captures (R117) and the answers that end it: a `'\n'`, a read that answers Empty, or a full
buffer. -/
inductive LineCaptured (cap : Nat) : List Byte → List RxAnswer → Prop
  | newline (text : List Byte) (h : chLf ∉ text) (hlen : text.length + 2 ≤ cap) :
    LineCaptured cap (chSlash :: text ++ [chLf]) (rxBytes (chSlash :: text ++ [chLf]))
  | quiet (text : List Byte) (h : chLf ∉ text) (hlen : text.length + 1 < cap) :
    LineCaptured cap (chSlash :: text) (rxBytes (chSlash :: text) ++ [.empty])
  | full (text : List Byte) (h : chLf ∉ text) (hlen : text.length + 1 = cap) :
    LineCaptured cap (chSlash :: text) (rxBytes (chSlash :: text))

/-- A byte the capture accepts as body (42_d0_handshake.md R125, the column "bytes accepted as body"), other than
`'!'`. -/
def BodyByte (p : BodyCheck) (b : Byte) : Prop :=
  b ≠ chBang ∧
    match p with
    | .intended => 0x20#8 ≤ b ∧ b ≤ 0x7E#8
    | .literal => 0x7E#8 ≤ b

/-- The D0_READ or READ of a D0 session: the commands that run the D0 engine (R111, 43_session.md R141; that
READ dispatches on PATH is the spec's reading D17). -/
def RunsD0 (i : Instr) (s : State) : Prop := i = .d0Read ∨ (i = .read ∧ s.status.path = .d0)

/-- The state the D0 engine starts from: READ has cleared the outcome (R141). -/
def d0Start (i : Instr) (s : State) : State := if i = .read then clearOutcome s else s

/-- Whether D0_READ issues the rebase `Apply` (R112). -/
def rebases (s : State) : Bool := s.params.d0Rebase && s.status.term

/-- CONFIG when the wake-up starts (R112). -/
def wakeConfig (s : State) : TransportConfig :=
  if s.params.d0Rebase then d0Baseline s.config else s.config

/-- CONFIG after the baud switch (R124). -/
def switchedConfig (s : State) (t : Terms) : TransportConfig :=
  match t.baud with
  | some b => { wakeConfig s with baud := b }
  | none => wakeConfig s

/-- The rebase request, if any. -/
def rebaseRequests (s : State) : List Output :=
  if rebases s then [.request (.apply (d0Baseline s.config))] else []

/-- WAKE and SIGNON (R113 to R115). -/
def wakeRequests : List Output :=
  List.replicate 65 (.request (.tx [0x00])) ++ [.request .drain, .request (.wait 2700)]

/-- The sign-on request and its drain (R115). -/
def signonRequests : List Output := [.request (.tx [0x2F, 0x3F, 0x21, 0x0D, 0x0A]), .request .drain]

/-- The ACK and its drain (R123). -/
def ackRequests (c4 : Byte) (t : Terms) : List Output :=
  if t.ack then [.request (.tx [0x06, 0x30, c4, 0x30, 0x0D, 0x0A]), .request .drain] else []

/-- The baud switch (R124). -/
def switchRequests (s : State) (t : Terms) : List Output :=
  if t.baud.isSome && s.status.term then [.request (.apply (switchedConfig s t))] else []

/-- The sign-off and its drain (R128). -/
def signoffRequests (s : State) : List Output :=
  if s.status.term then [.request (.tx [0x06, 0x01, 0x42, 0x30, 0x03, 0x71]), .request .drain] else []

/-- The requests of a D0_READ up to the identification line of `n` bytes (R131). -/
def identificationRequests (s : State) (n : Nat) : List Output :=
  rebaseRequests s ++ wakeRequests ++ signonRequests ++ rxRequests n

/-- The requests of a successful D0_READ (R131), for a line of `n` bytes and a telegram proper of `l`. -/
def handshakeRequests (s : State) (c4 : Byte) (t : Terms) (n l : Nat) : List Output :=
  identificationRequests s n ++ ackRequests c4 t ++ switchRequests s t ++ rxRequests l ++ signoffRequests s

/-- The answers to the `Tx` requests of a wake-up and sign-on that succeed. -/
def wakeTxAnswers : List TxAnswer := List.replicate 65 (.written 1) ++ [.written 5]

/-- The answers to all `Tx` requests of a D0_READ that succeeds. -/
def handshakeTxAnswers (s : State) (t : Terms) : List TxAnswer :=
  wakeTxAnswers ++ (if t.ack then [.written 6] else []) ++ (if s.status.term then [.written 6] else [])

/-- The answers to the `Apply` requests of a D0_READ that succeeds. -/
def handshakeApplyAnswers (s : State) (t : Terms) : List ApplyAnswer :=
  (if rebases s then [.ok] else []) ++ (if t.baud.isSome && s.status.term then [.ok] else [])

/-- How many `Done` answers a D0_READ that succeeds consumes. -/
def handshakeDone (s : State) (t : Terms) : Nat :=
  3 + (if t.ack then 1 else 0) + (if s.status.term then 1 else 0)

end Sys2Proof.Machine
end

