-- ==== Sys2Proof/Certificates/Slice0/Obligations.lean ====
section
/-! DEFINITION. The statements for the provers. -/

open Sys2Proof Sys2Proof.Machine

/-! ## Encoding -/

/-- Decoding the word of any command gives that command, with every operand at every value (30_encoding.md R67 to R70,
R73). No must-be-zero field is lost and no operand bit is dropped. -/
def Obligations.DecodeOfEncode : Prop := ∀ i : Instr, decode (encode i) = .command i

/-- Every legal word is the word of the command it decodes to: no two words are one command (R67, R68, R71). -/
def Obligations.EncodeOfDecode : Prop := ∀ (w : Word) (i : Instr), decode w = .command i → encode i = w

/-- R70: exactly which words are illegal, and what the block does with one. -/
def Obligations.IllegalWordsAreBadCommands : Prop :=
  (∀ w : Word, (∃ why, decode w = .illegal why) ↔
    opcField w ∉ [0x01#8, 0x02#8, 0x03#8, 0x10#8, 0x20#8, 0x30#8, 0x40#8, 0x41#8, 0x42#8, 0x43#8] ∨
      (regField w ≠ 0 ∧ opcField w ∉ [0x01#8, 0x02#8]) ∨
      (immField w ≠ 0 ∧ opcField w ∈ [0x01#8, 0x20#8, 0x30#8, 0x40#8, 0x41#8, 0x42#8, 0x43#8])) ∧
  ∀ (s : State) (w : Word) (ws : List Word) (why : Illegal), s.ctl = .idle → s.env.host = w :: ws →
    decode w = .illegal why →
    step s = .next { s with
      env := { s.env with host := ws }
      result := 0xFFFFFFF5#32
      out := s.out ++ [.response 0xFFFFFFF5#32] }

/-- Words written out from the encodings of R68 decode to their commands (95_test_vectors.md section 5). -/
def Obligations.SpecWordsDecode : Prop :=
  decode 0x010C0000#32 = .command (.regRead 0x0C) ∧ decode 0x02020040#32 = .command (.regWrite 0x02 64) ∧
    decode 0x0300002C#32 = .command (.bufRead 44) ∧ decode 0x1000002D#32 = .command (.crcCompute 45) ∧
    decode 0x20000000#32 = .command .frameRead ∧ decode 0x30000000#32 = .command .d0Read ∧
    decode 0x40000000#32 = .command .openP1 ∧ decode 0x41000000#32 = .command .openD0 ∧
    decode 0x42000000#32 = .command .read ∧ decode 0x43000000#32 = .command .close

/-! ## The step -/

/-- When the block is IDLE and the word the host sends decodes to a command, the step takes the word and is `exec` of
that command (43_session.md R135). The step adds nothing around `exec`. -/
def Obligations.StepRunsDecodedCommand : Prop :=
  ∀ (s : State) (w : Word) (ws : List Word) (i : Instr), s.ctl = .idle → s.env.host = w :: ws →
    decode w = .command i → step s = exec i { s with env := { s.env with host := ws } }

/-- An IDLE block to which the host sends nothing stays as it is (70_reset_and_hazards.md R171). -/
def Obligations.IdleBlockExecutesNothing : Prop :=
  ∀ s : State, s.ctl = .idle → s.env.host = [] → step s = .next s

/-- The block has no meaning for a command given to it while another is in progress (10_state.md R48,
70_reset_and_hazards.md R183). The stop by a fault is the model's reading of "no move", assumption log 13. -/
def Obligations.BusyBlockTakesNoCommand : Prop :=
  ∀ (i : Instr) (s : State), s.ctl ≠ .idle → exec i s = .fault .commandInProgress

/-- A block whose outstanding request has not been answered waits, whatever else the environment has answered
(10_state.md R48, 60_exceptions.md R169). That a wait is a step that changes nothing is the model's form of it,
assumption log 4. -/
def Obligations.UnansweredRequestWaits : Prop :=
  ∀ (s : State) (r : Request), outstanding s = some r → s.env.answered r = false → step s = .next s

/-- A block whose outstanding request has been answered makes one exchange, and then goes on in the same way until the
command ends or waits (00_scope.md R6, 20_memory.md R60; assumption log 16). -/
def Obligations.AnsweredRequestIsOneExchange : Prop :=
  ∀ (s : State) (r : Request), outstanding s = some r → s.env.answered r = true →
    ∃ m, move s = some m ∧ step s = andThen m fun t => if t.ctl = .idle then .next t else step t

/-- It does not matter when the environment answers: a command that stopped to wait and was answered later ends as the
command that had all the answers at once (10_state.md R40, 00_scope.md R12; assumption log 4). -/
def Obligations.LateAnswersMakeNoDifference : Prop :=
  ∀ (i : Instr) (s t : State) (e : Env), exec i s = .next t →
    exec i (s.withMoreAnswers e) =
      if t.ctl = .idle then .next (t.withMoreAnswers e) else step (t.withMoreAnswers e)

/-! ## Host access -/

/-- R136: REG_READ answers the register's value, or ERR_BADCMD for a reserved index, in an open session or not, and
changes nothing, RESULT included. -/
def Obligations.RegReadAnswersTheRegister : Prop :=
  ∀ (reg : BitVec 8) (s : State), s.ctl = .idle →
    exec (.regRead reg) s =
      .next { s with out := s.out ++ [.response ((registerFile s)[reg.toNat]?.getD 0xFFFFFFF5#32)] }

/-- The layout of STATUS (10_state.md R22): each field at its place, bits 31..16 zero. -/
def Obligations.StatusLayout : Prop :=
  ∀ f : Status, f.word.toNat =
    (if f.isOpen then 1 else 0) + (match f.path with | .p1 => 0 | .d0 => 2) + (if f.term then 4 else 0) +
    8 * (match f.mode with | .probe => 0 | .modeA => 1 | .modeB => 2 | .modeC => 3 | .modeD => 4 | .modeE => 5) +
    64 * (match f.style with | .unclassed => 0 | .legacy => 1 | .crc => 2) +
    (if f.crcMismatch then 256 else 0) + (if f.crcPresent then 512 else 0) +
    1024 * (match f.parseStatus with
      | none => 0 | some .incomplete => 1 | some .accepted => 2 | some .rejected => 3) +
    (if f.parseOk then 4096 else 0) + (if f.ackSent then 8192 else 0) + (if f.signoffSent then 16384 else 0) +
    (if f.dumped then 32768 else 0)

/-- The layout of CONFIG (10_state.md R23): each field at its place, bits 15..10 and 31..24 zero. -/
def Obligations.ConfigLayout : Prop :=
  ∀ c : TransportConfig, c.word.toNat =
    (match c.baud with
      | .unset => 0 | .b300 => 1 | .b600 => 2 | .b1200 => 3 | .b2400 => 4 | .b4800 => 5 | .b9600 => 6
      | .b19200 => 7 | .b115200 => 8) +
    (match c.csize with | .seven => 0 | .eight => 16) + (match c.parity with | .noParity => 0 | .even => 32) +
    (if c.clocal then 128 else 0) + (if c.raw then 256 else 0) + (if c.stopb then 512 else 0) +
    65536 * c.vtime.toNat

/-- R137: REG_WRITE stores the low bits that the named register has and answers 0; any other index answers ERR_BADCMD
and changes no register but RESULT. -/
def Obligations.RegWriteStoresTheLowBits : Prop :=
  ∀ (reg : BitVec 8) (value : BitVec 16) (s : State), s.ctl = .idle →
    exec (.regWrite reg value) s = .next (
      if reg = 0x02 then { s with capacity := value, result := 0, out := s.out ++ [.response 0] }
      else if reg = 0x03 then { s with vtime := value.setWidth 8, result := 0, out := s.out ++ [.response 0] }
      else if reg = 0x04 then { s with maxfail := value, result := 0, out := s.out ++ [.response 0] }
      else if reg = 0x05 then
        { s with dumpEn := decide (value.toNat % 2 = 1), result := 0, out := s.out ++ [.response 0] }
      else { s with result := 0xFFFFFFF5#32, out := s.out ++ [.response 0xFFFFFFF5#32] })

/-- R138: BUF_READ answers ERR_SESSION in a closed session, ERR_BADCMD out of range, the byte of a written cell, and
some byte for an UNWRITTEN cell; it writes RESULT only. The count of draws is the model's own (assumption log 8). -/
def Obligations.BufReadAnswersTheCell : Prop :=
  ∀ (offset : BitVec 16) (s : State), s.ctl = .idle →
    (s.status.isOpen = false → exec (.bufRead offset) s =
      .next { s with result := 0xFFFFFFFF#32, out := s.out ++ [.response 0xFFFFFFFF#32] }) ∧
    (s.status.isOpen = true → s.bufcap.toNat ≤ offset.toNat → exec (.bufRead offset) s =
      .next { s with result := 0xFFFFFFF5#32, out := s.out ++ [.response 0xFFFFFFF5#32] }) ∧
    (∀ b, s.status.isOpen = true → offset.toNat < s.bufcap.toNat → s.buf.read offset.toNat = some b →
      exec (.bufRead offset) s =
        .next { s with result := b.setWidth 32, out := s.out ++ [.response (b.setWidth 32)] }) ∧
    (s.status.isOpen = true → offset.toNat < s.bufcap.toNat → s.buf.read offset.toNat = none →
      ∃ b : Byte, exec (.bufRead offset) s =
        .next { s with
          draws := s.draws + 1
          result := b.setWidth 32
          out := s.out ++ [.response (b.setWidth 32)] })

/-- Every session command in a closed session answers ERR_SESSION and does nothing else (60_exceptions.md R155, R156,
70_reset_and_hazards.md R173). -/
def Obligations.ClosedSessionAnswersErrSession : Prop :=
  ∀ (i : Instr) (s : State), s.ctl = .idle → s.status.isOpen = false →
    (i = .frameRead ∨ i = .d0Read ∨ i = .read ∨ i = .close ∨ (∃ n, i = .crcCompute n) ∨ ∃ k, i = .bufRead k) →
    exec i s = .next { s with result := 0xFFFFFFFF#32, out := s.out ++ [.response 0xFFFFFFFF#32] }

/-- The numbers of the failure codes (60_exceptions.md R155), as 32-bit two's complement (30_encoding.md R72). -/
def Obligations.FailureCodeNumbers : Prop :=
  (ErrCode.session.word, ErrCode.write.word, ErrCode.read.word, ErrCode.noId.word, ErrCode.invalidId.word,
    ErrCode.unsupportedBinary.word, ErrCode.nonprintable.word, ErrCode.bufferTooSmall.word, ErrCode.config.word,
    ErrCode.noData.word, ErrCode.badCmd.word) =
  ((0xFFFFFFFF#32, 0xFFFFFFFE#32, 0xFFFFFFFD#32, 0xFFFFFFFC#32, 0xFFFFFFFB#32, 0xFFFFFFFA#32, 0xFFFFFFF9#32,
    0xFFFFFFF8#32, 0xFFFFFFF7#32, 0xFFFFFFF6#32, 0xFFFFFFF5#32) : Word × Word × Word × Word × Word × Word × Word ×
      Word × Word × Word × Word)

/-! ## The CRC unit -/

/-- R93: with `'!'` at `n-3`, CRC_COMPUTE answers 0 whatever the other cells hold. Within the buffer the style is LEGACY;
beyond it the length test of R85 comes first and the style is NONE. -/
def Obligations.CrcOfLegacyIsZero : Prop :=
  ∀ (n : BitVec 16) (s : State), Ready s → 3 ≤ n.toNat → s.buf.read (n.toNat - 3) = some 0x21#8 →
    exec (.crcCompute n) s = .next { s with
      status := { s.status with style := if n.toNat ≤ s.bufcap.toNat then .legacy else .unclassed }
      crcComputed := 0
      result := 0
      out := s.out ++ [.response 0] }

/-- R85 and R86: the CRC of a CRC-bearing telegram covers exactly the `n-6` bytes from offset 0 through the `'!'`, for
every CRC16_FN (R87). -/
def Obligations.CrcCoversThroughTheEndMarker : Prop :=
  ∀ (n : BitVec 16) (covered : List Byte) (d : Byte) (s : State), Ready s → covered.length + 6 = n.toNat →
    n.toNat ≤ s.bufcap.toNat → Holds s.buf 0 covered → covered.getLast? = some 0x21#8 →
    s.buf.read (n.toNat - 3) = some d → d ≠ 0x21#8 →
    exec (.crcCompute n) s = .next { s with
      status := { s.status with style := .crc }
      crcComputed := crc16Fn s.params.crc covered
      result := (crc16Fn s.params.crc covered).setWidth 32
      out := s.out ++ [.response ((crc16Fn s.params.crc covered).setWidth 32)] }

/-- R85: a length beyond the buffer, a length below 3, or a buffer with `'!'` at neither fixed offset answers 0 with
style NONE. -/
def Obligations.CrcOfNoTelegramIsZero : Prop :=
  ∀ (n : BitVec 16) (s : State), Ready s →
    (s.bufcap.toNat < n.toNat ∨
      ((3 ≤ n.toNat → ∃ b, s.buf.read (n.toNat - 3) = some b ∧ b ≠ 0x21#8) ∧
        (7 ≤ n.toNat → ∃ b, s.buf.read (n.toNat - 7) = some b ∧ b ≠ 0x21#8))) →
    exec (.crcCompute n) s = .next { s with
      status := { s.status with style := .unclassed }
      crcComputed := 0
      result := 0
      out := s.out ++ [.response 0] }

/-- The frame of CRC_COMPUTE and that it repeats (R92). The repetition is stated for written cells: an UNWRITTEN cell
yields a byte drawn per read (93_implementation_defined.md U2), and the count of draws is the model's own. -/
def Obligations.CrcComputeIsPure : Prop :=
  ∀ (n : BitVec 16) (s : State), Ready s →
    ∃ (style : Style) (c : BitVec 16) (d : Nat),
      exec (.crcCompute n) s = .next { s with
        status := { s.status with style := style }
        crcComputed := c
        draws := d
        result := c.setWidth 32
        out := s.out ++ [.response (c.setWidth 32)] } ∧
      ((∀ i, i < n.toNat → (s.buf.read i).isSome) →
        d = s.draws ∧
        exec (.crcCompute n) { s with
          status := { s.status with style := style }
          crcComputed := c
          result := c.setWidth 32
          out := s.out ++ [.response (c.setWidth 32)] } =
        .next { s with
          status := { s.status with style := style }
          crcComputed := c
          result := c.setWidth 32
          out := s.out ++ [.response (c.setWidth 32)] ++ [.response (c.setWidth 32)] })

/-- R91: one changed byte in the covered range changes the answer, as long as the `'!'` stays. For CRC16_FN at
its default, as the rule says. -/
def Obligations.CrcDetectsEveryChangedByte : Prop :=
  ∀ (n : BitVec 16) (before after : List Byte) (x y d : Byte) (s t u : State), Ready s → s.params.crc = .arc → x ≠ y →
    before.length + 1 + after.length + 7 = n.toNat → n.toNat ≤ s.bufcap.toNat →
    Holds s.buf 0 (before ++ x :: after ++ [0x21#8]) → s.buf.read (n.toNat - 3) = some d → d ≠ 0x21#8 →
    exec (.crcCompute n) s = .next t →
    exec (.crcCompute n) { s with buf := s.buf.write before.length y } = .next u → t.result ≠ u.result

/-- The check value of CRC-16/ARC (R88), the CRC of V-CRC-1, and the empty string. -/
def Obligations.CrcCheckValues : Prop :=
  crc16Fn .arc [0x31, 0x32, 0x33, 0x34, 0x35, 0x36, 0x37, 0x38, 0x39] = 0xBB3D#16 ∧
    crc16Fn .arc [0x2F, 0x41, 0x21] = 0x81C1#16 ∧ crc16Fn .arc [] = 0

/-! ## The framer -/

/-- FRAME_READ skips bytes other than `'/'` and delivers the first telegram, at offset 0, with one read per byte and not
one read more; it writes the telegram's cells, LAST_LEN, FAILCNT and RESULT (41_framer.md R94 to R97, R99 to R102).
The internal registers are undefined afterwards (10_state.md R32). -/
def Obligations.FrameReadDeliversTheFirstTelegram : Prop :=
  ∀ (s : State) (noise tel : List Byte) (rest : List RxAnswer), Ready s → 0x2F#8 ∉ noise → Framed tel →
    tel.length ≤ s.bufcap.toNat → searchWithinBudget s.params s.maxfail noise.length →
    s.env.rx = rxBytes noise ++ rxBytes tel ++ rest →
    ∃ (buf : Memory) (work : Work),
      exec .frameRead s = .next { s with
        buf := buf
        work := work
        lastLen := BitVec.ofNat 16 tel.length
        failcnt := searchCharge s.params noise.length
        result := BitVec.ofNat 32 tel.length
        env := { s.env with rx := rest }
        out := s.out ++ rxRequests (noise.length + tel.length) ++ [.response (BitVec.ofNat 32 tel.length)] } ∧
      Holds buf 0 tel ∧ SameOutside s.buf buf 0 tel.length

/-- FRAME_READ recovers: after any noise, overflowed candidates and candidates with a bad tail, charged as R95, R96, R98
and R103 say and within the budget, it delivers the next telegram. Bytes eaten as the tail of a bad candidate are not
scanned again (R104), and a failed read inside a tail ends nothing (R99, R102). -/
def Obligations.FrameReadRecovers : Prop :=
  ∀ (s : State) (junk : List RxAnswer) (n : Nat) (tel : List Byte) (rest : List RxAnswer), Ready s →
    8 ≤ s.bufcap.toNat → Discarded s.params s.bufcap.toNat junk n → WithinBudget s.maxfail n → Framed tel →
    tel.length ≤ s.bufcap.toNat → s.env.rx = junk ++ rxBytes tel ++ rest →
    ∃ (buf : Memory) (work : Work),
      exec .frameRead s = .next { s with
        buf := buf
        work := work
        lastLen := BitVec.ofNat 16 tel.length
        failcnt := saturate31 n
        result := BitVec.ofNat 32 tel.length
        env := { s.env with rx := rest }
        out := s.out ++ rxRequests (junk.length + tel.length) ++ [.response (BitVec.ofNat 32 tel.length)] } ∧
      Holds buf 0 tel ∧ SameOutside s.buf buf 0 s.bufcap.toNat

/-- FRAME_READ answers 0 when the stream goes quiet outside a tail probe (R107; the candidate in progress is not
charged) or when a charge reaches the budget (R106; no further byte is read and FAILCNT keeps the value). -/
def Obligations.FrameReadFindsNothing : Prop :=
  ∀ (s : State) (stream rest : List RxAnswer) (n : Nat), Ready s → 8 ≤ s.bufcap.toNat →
    Fruitless s.params s.bufcap.toNat s.maxfail stream n → s.env.rx = stream ++ rest →
    ∃ (buf : Memory) (work : Work),
      exec .frameRead s = .next { s with
        buf := buf
        work := work
        lastLen := 0
        failcnt := saturate31 n
        result := 0
        env := { s.env with rx := rest }
        out := s.out ++ rxRequests stream.length ++ [.response 0] } ∧
      SameOutside s.buf buf 0 s.bufcap.toNat

/-- R107: a read of FR_SEARCH or FR_ACCUM that answers Empty or Error ends FRAME_READ with 0; the candidate in progress
is dropped and not charged. -/
def Obligations.QuietStreamEndsFrameRead : Prop :=
  ∀ (s : State) (a : RxAnswer) (rest : List RxAnswer), s.ctl = .frSearch ∨ s.ctl = .frAccum →
    s.work.inRead = false → a = .empty ∨ a = .error → s.env.rx = a :: rest →
    step s = .next { s with
      ctl := .idle
      lastLen := 0
      result := 0
      env := { s.env with rx := rest }
      out := s.out ++ [.response 0] }

/-- A stream of bytes other than `'/'`, with search bytes not charged, keeps FRAME_READ in FR_SEARCH: it reads on after
every byte and never answers (R110, 93_implementation_defined.md U11). -/
def Obligations.StreamWithoutSlashHangs : Prop :=
  ∀ (s : State) (noise : List Byte), Ready s → s.params.chargeSearch = false → 0x2F#8 ∉ noise →
    s.env.rx = rxBytes noise →
    ∃ work : Work, exec .frameRead s = .next { s with
      ctl := .frSearch
      work := work
      failcnt := 0
      env := { s.env with rx := [] }
      out := s.out ++ rxRequests (noise.length + 1) }

/-- R105: what a positive response L of FRAME_READ says of the buffer: `'/'` at 0, the first `'!'` at L-3 or L-7 with the
tail of that style, L within BUFCAP; and how CRC_COMPUTE(L) then classes it. -/
def Obligations.FrameReadOutputShape : Prop :=
  ∀ s t : State, StateInv s → Ready s → exec .frameRead s = .next t → t.ctl = .idle → t.result ≠ 0 →
    ∃ len : BitVec 16, t.result = len.setWidth 32 ∧ t.lastLen = len ∧ len.toNat ≤ t.bufcap.toNat ∧
      t.buf.read 0 = some 0x2F#8 ∧
      ((4 ≤ len.toNat ∧ t.buf.read (len.toNat - 3) = some 0x21#8 ∧
          (∀ i, i < len.toNat - 3 → t.buf.read i ≠ some 0x21#8) ∧ t.buf.read (len.toNat - 2) = some 0x0D#8 ∧
          ∃ u, exec (.crcCompute len) t = .next u ∧ u.status.style = .legacy) ∨
        (8 ≤ len.toNat ∧ t.buf.read (len.toNat - 7) = some 0x21#8 ∧
          (∀ i, i < len.toNat - 7 → t.buf.read i ≠ some 0x21#8) ∧ t.buf.read (len.toNat - 6) ≠ some 0x0D#8 ∧
          t.buf.read (len.toNat - 2) = some 0x0D#8 ∧
          ∃ u, exec (.crcCompute len) t = .next u ∧
            u.status.style = if t.buf.read (len.toNat - 3) = some 0x21#8 then .legacy else .crc))

/-! ## The D0 engine -/

/-- A D0_READ that meets no failure: the whole exchange sequence in the order of R131, the mode, rate and ACK of the
identification line by the tables of 30_encoding.md R80 and R81, the identification line and the telegram proper in the
buffer, and what is left unread (70_reset_and_hazards.md R178). Stated for a terminal or not (R37, R128) and for either
value of P_D0_REBASE and P_BODY_CHECK. -/
def Obligations.D0ReadCompletesTheHandshake : Prop :=
  ∀ (s : State) (ident body : List Byte) (c4 : Byte) (t : Terms) (rest : List RxAnswer) (txs : List TxAnswer)
    (applies : List ApplyAnswer) (d : Nat), Ready s → IdLine ident → ident[4]? = some c4 →
    negotiate ident = .terms t → (∀ b ∈ body, BodyByte s.params.bodyCheck b) →
    ident.length + body.length + 1 ≤ s.bufcap.toNat →
    s.env.rx = rxBytes (ident ++ body ++ [0x21#8]) ++ rest → s.env.tx = handshakeTxAnswers s t ++ txs →
    s.env.apply = handshakeApplyAnswers s t ++ applies → s.env.done = handshakeDone s t + d →
    ∃ (buf : Memory) (work : Work),
      exec .d0Read s = .next { s with
        status := { s.status with mode := t.mode, ackSent := t.ack, signoffSent := s.status.term }
        config := switchedConfig s t
        idLen := BitVec.ofNat 16 ident.length
        lastLen := BitVec.ofNat 16 (body.length + 1)
        buf := buf
        work := work
        result := BitVec.ofNat 32 (body.length + 1)
        env := { s.env with rx := rest, tx := txs, apply := applies, done := d }
        out := s.out ++ handshakeRequests s c4 t ident.length (body.length + 1) ++
          [.response (BitVec.ofNat 32 (body.length + 1))] } ∧
      Holds buf 0 (ident ++ body ++ [0x21#8]) ∧ SameOutside s.buf buf 0 (ident.length + body.length + 1)

/-- R133: an identification line with a digit at offset 4 and `'\\'` `'2'` at offsets 5 and 6 ends D0_READ, and READ on
the D0 path, with ERR_UNSUPPORTED_BINARY: no ACK, no switch, MODE as it was. READ's form is 43_session.md R141 and R145,
and that READ dispatches on PATH is the spec's reading D17. -/
def Obligations.BinaryMetersAreRejected : Prop :=
  ∀ (i : Instr) (s : State) (ident : List Byte) (c4 : Byte) (rest : List RxAnswer) (txs : List TxAnswer)
    (applies : List ApplyAnswer) (d : Nat), RunsD0 i s → Ready s → IdLine ident → ident.length ≤ s.bufcap.toNat →
    ident[4]? = some c4 → 0x30#8 ≤ c4 → c4 ≤ 0x36#8 → ident[5]? = some 0x5C#8 → ident[6]? = some 0x32#8 →
    s.env.rx = rxBytes ident ++ rest → s.env.tx = wakeTxAnswers ++ txs →
    s.env.apply = (if rebases s then [.ok] else []) ++ applies → s.env.done = 3 + d →
    ∃ (buf : Memory) (work : Work),
      exec i s = .next { d0Start i s with
        status := { (d0Start i s).status with ackSent := false, signoffSent := false }
        config := wakeConfig s
        idLen := BitVec.ofNat 16 ident.length
        lastLen := 0
        buf := buf
        work := work
        result := 0xFFFFFFFA#32
        env := { s.env with rx := rest, tx := txs, apply := applies, done := d }
        out := s.out ++ identificationRequests s ident.length ++ [.response 0xFFFFFFFA#32] } ∧
      Holds buf 0 ident ∧ SameOutside s.buf buf 0 ident.length

/-- A captured line that does not end `'\r' '\n'`, or that the tables of 30_encoding.md R80 and R81 give no mode, ends
the read with ERR_INVALID_ID; ID_LEN counts the line, MODE stays (R117 to R120, R122). READ's form is 43_session.md R141
and R145, and that READ dispatches on PATH is the spec's reading D17. -/
def Obligations.InvalidIdentificationIsRejected : Prop :=
  ∀ (i : Instr) (s : State) (line : List Byte) (answers rest : List RxAnswer) (txs : List TxAnswer)
    (applies : List ApplyAnswer) (d : Nat), RunsD0 i s → Ready s → LineCaptured s.bufcap.toNat line answers →
    ¬ IdLine line ∨ negotiate line = .invalid →
    s.env.rx = answers ++ rest → s.env.tx = wakeTxAnswers ++ txs →
    s.env.apply = (if rebases s then [.ok] else []) ++ applies → s.env.done = 3 + d →
    ∃ (buf : Memory) (work : Work),
      exec i s = .next { d0Start i s with
        status := { (d0Start i s).status with ackSent := false, signoffSent := false }
        config := wakeConfig s
        idLen := BitVec.ofNat 16 line.length
        lastLen := 0
        buf := buf
        work := work
        result := 0xFFFFFFFB#32
        env := { s.env with rx := rest, tx := txs, apply := applies, done := d }
        out := s.out ++ identificationRequests s answers.length ++ [.response 0xFFFFFFFB#32] } ∧
      Holds buf 0 line ∧ SameOutside s.buf buf 0 line.length

/-- R127: an identification line that fills the buffer and negotiates terms leaves no room for a telegram: after the ACK
and the rate switch of the terms (R122 to R124) the command ends with ERR_BUFFER_TOO_SMALL before any further read, and
there is no sign-off. READ's form is 43_session.md R141 and R145, and that READ dispatches on PATH is the spec's reading
D17. -/
def Obligations.FullLineLeavesNoRoom : Prop :=
  ∀ (i : Instr) (s : State) (ident : List Byte) (c4 : Byte) (t : Terms) (rest : List RxAnswer) (txs : List TxAnswer)
    (applies : List ApplyAnswer) (d : Nat), RunsD0 i s → Ready s → IdLine ident → ident.length = s.bufcap.toNat →
    ident[4]? = some c4 → negotiate ident = .terms t → s.env.rx = rxBytes ident ++ rest →
    s.env.tx = wakeTxAnswers ++ (if t.ack then [.written 6] else []) ++ txs →
    s.env.apply = handshakeApplyAnswers s t ++ applies → s.env.done = 3 + (if t.ack then 1 else 0) + d →
    ∃ (buf : Memory) (work : Work),
      exec i s = .next { d0Start i s with
        status := { (d0Start i s).status with mode := t.mode, ackSent := t.ack, signoffSent := false }
        config := switchedConfig s t
        idLen := s.bufcap
        lastLen := 0
        buf := buf
        work := work
        result := 0xFFFFFFF8#32
        env := { s.env with rx := rest, tx := txs, apply := applies, done := d }
        out := s.out ++ identificationRequests s ident.length ++ ackRequests c4 t ++ switchRequests s t ++
          [.response 0xFFFFFFF8#32] } ∧
      Holds buf 0 ident ∧ SameOutside s.buf buf 0 ident.length

/-- The first wake-up byte that is not written ends the read with ERR_WRITE: no further null, no drain (R112, R113).
READ's form, with the outcome cleared and the same code, is 43_session.md R141 and R145, and that READ dispatches on PATH
is the spec's reading D17. -/
def Obligations.FailedWakeUpAborts : Prop :=
  ∀ (i : Instr) (s : State) (k : Nat) (a : TxAnswer) (txs : List TxAnswer) (applies : List ApplyAnswer),
    RunsD0 i s → Ready s → k < 65 → a = .written 0 ∨ a = .error → s.env.tx = List.replicate k (.written 1) ++ a :: txs →
    s.env.apply = (if rebases s then [.ok] else []) ++ applies →
    ∃ work : Work,
      exec i s = .next { d0Start i s with
        status := { (d0Start i s).status with ackSent := false, signoffSent := false }
        config := wakeConfig s
        idLen := 0
        lastLen := 0
        work := work
        result := 0xFFFFFFFE#32
        env := { s.env with tx := txs, apply := applies }
        out := s.out ++ rebaseRequests s ++ List.replicate (k + 1) (.request (.tx [0x00#8])) ++
          [.response 0xFFFFFFFE#32] }

/-- A first identification byte other than `'/'`, or none, ends the read with ERR_NO_ID, a failed read with ERR_READ,
after the wake-up and the sign-on (R112 to R116). READ's form, with the outcome cleared and the same codes, is
43_session.md R141 and R145, and that READ dispatches on PATH is the spec's reading D17. -/
def Obligations.MissingIdentificationAborts : Prop :=
  ∀ (i : Instr) (s : State) (a : RxAnswer) (rest : List RxAnswer) (txs : List TxAnswer) (applies : List ApplyAnswer)
    (d : Nat), RunsD0 i s → Ready s → a ≠ .byte 0x2F#8 → s.env.rx = a :: rest → s.env.tx = wakeTxAnswers ++ txs →
    s.env.apply = (if rebases s then [.ok] else []) ++ applies → s.env.done = 3 + d →
    ∃ work : Work,
      exec i s = .next { d0Start i s with
        status := { (d0Start i s).status with ackSent := false, signoffSent := false }
        config := wakeConfig s
        idLen := 0
        lastLen := 0
        work := work
        result := if a = .error then 0xFFFFFFFD#32 else 0xFFFFFFFC#32
        env := { s.env with rx := rest, tx := txs, apply := applies, done := d }
        out := s.out ++ identificationRequests s 1 ++
          [.response (if a = .error then 0xFFFFFFFD#32 else 0xFFFFFFFC#32)] }

/-- A read that answers Error while the D0 engine identifies or captures ends the command with ERR_READ and changes
nothing else (R116, R117, R126, R130). -/
def Obligations.D0ReadErrorAborts : Prop :=
  ∀ (s : State) (rest : List RxAnswer), s.ctl = .d0AwaitId ∨ s.ctl = .d0IdRead ∨ s.ctl = .d0Capture →
    s.env.rx = .error :: rest →
    step s = .next { s with
      ctl := .idle
      result := 0xFFFFFFFD#32
      env := { s.env with rx := rest }
      out := s.out ++ [.response 0xFFFFFFFD#32] }

/-- A sign-on, ACK or sign-off that is not written in full is drained all the same, and the command then ends with
ERR_WRITE; nothing else changes: ACK_SENT or SIGNOFF_SENT is not set, LAST_LEN stays, MODE and CONFIG.BAUD are kept
(R115, R123, R128, R130). Stated from the answer of the `Tx`, and for a block that waited at the drain. -/
def Obligations.ShortWriteAborts : Prop :=
  (∀ (s : State) (n : Nat) (a : TxAnswer) (txs : List TxAnswer) (d : Nat),
    (s.ctl = .d0Signon ∧ n = 5) ∨ (s.ctl = .d0Ack ∧ n = 6) ∨ (s.ctl = .d0Signoff ∧ n = 6) →
    a = .error ∨ (∃ m, m < n ∧ a = .written m) → s.env.tx = a :: txs → s.env.done = d + 1 →
    step s = .next { s with
      ctl := .idle
      work := { s.work with wrote := a }
      result := 0xFFFFFFFE#32
      env := { s.env with tx := txs, done := d }
      out := s.out ++ [.request .drain, .response 0xFFFFFFFE#32] }) ∧
  ∀ (s : State) (d : Nat),
    (s.ctl = .d0SignonDrain ∧ s.work.wrote ≠ .written 5) ∨ (s.ctl = .d0AckDrain ∧ s.work.wrote ≠ .written 6) ∨
      (s.ctl = .d0SignoffDrain ∧ s.work.wrote ≠ .written 6) →
    s.env.done = d + 1 →
    step s = .next { s with
      ctl := .idle
      result := 0xFFFFFFFE#32
      env := { s.env with done := d }
      out := s.out ++ [.response 0xFFFFFFFE#32] }

/-- A rebase, a baud switch or a toggle whose Apply fails ends the command with ERR_CONFIG; CONFIG is unchanged (R112,
R124; 43_session.md R143). -/
def Obligations.FailedApplyKeepsConfig : Prop :=
  ∀ (s : State) (applies : List ApplyAnswer), s.ctl = .d0Rebase ∨ s.ctl = .d0Baud ∨ s.ctl = .rdToggle →
    s.env.apply = .fail :: applies →
    step s = .next { s with
      ctl := .idle
      result := 0xFFFFFFF7#32
      env := { s.env with apply := applies }
      out := s.out ++ [.response 0xFFFFFFF7#32] }

/-- R126: what one answered read of the telegram capture does: Error and Empty abort, a byte that fails the body test
aborts and is not stored, any other byte but `'!'` is stored and the capture reads on or, with the buffer full, aborts;
a `'!'` is stored first and leads to the sign-off of R128 or, on no terminal, to the end of the body. -/
def Obligations.CaptureTakesOneByte : Prop :=
  ∀ (s : State) (a : RxAnswer) (rest : List RxAnswer), s.ctl = .d0Capture → s.work.len < s.bufcap →
    s.status.mode ≠ .probe → s.env.rx = a :: rest →
    (a = .error → step s = .next { s with
      ctl := .idle
      result := 0xFFFFFFFD#32
      env := { s.env with rx := rest }
      out := s.out ++ [.response 0xFFFFFFFD#32] }) ∧
    (a = .empty → step s = .next { s with
      ctl := .idle
      result := 0xFFFFFFF6#32
      env := { s.env with rx := rest }
      out := s.out ++ [.response 0xFFFFFFF6#32] }) ∧
    (∀ b, a = .byte b → b ≠ 0x21#8 → ¬ BodyByte s.params.bodyCheck b → step s = .next { s with
      ctl := .idle
      result := 0xFFFFFFF9#32
      env := { s.env with rx := rest }
      out := s.out ++ [.response 0xFFFFFFF9#32] }) ∧
    (∀ b, a = .byte b → BodyByte s.params.bodyCheck b → s.work.len + 1 < s.bufcap →
      move s = some (.next { s with
        buf := s.buf.write s.work.len.toNat b
        work := { s.work with len := s.work.len + 1 }
        env := { s.env with rx := rest }
        out := s.out ++ [.request .rx] })) ∧
    (∀ b, a = .byte b → BodyByte s.params.bodyCheck b → s.work.len + 1 = s.bufcap → step s = .next { s with
      ctl := .idle
      buf := s.buf.write s.work.len.toNat b
      work := { s.work with len := s.work.len + 1 }
      result := 0xFFFFFFF8#32
      env := { s.env with rx := rest }
      out := s.out ++ [.response 0xFFFFFFF8#32] }) ∧
    (a = .byte 0x21#8 → s.status.term = true → move s = some (.next { s with
      ctl := .d0Signoff
      buf := s.buf.write s.work.len.toNat 0x21#8
      work := { s.work with len := s.work.len + 1 }
      env := { s.env with rx := rest }
      out := s.out ++ [.request (.tx [0x06, 0x01, 0x42, 0x30, 0x03, 0x71])] })) ∧
    (a = .byte 0x21#8 → s.status.term = false → s.work.inRead = false → step s = .next { s with
      ctl := .idle
      buf := s.buf.write s.work.len.toNat 0x21#8
      work := { s.work with len := s.work.len + 1 }
      lastLen := s.work.len + 1 - s.idLen
      result := (s.work.len + 1 - s.idLen).setWidth 32
      env := { s.env with rx := rest }
      out := s.out ++ [.response ((s.work.len + 1 - s.idLen).setWidth 32)] })

/-- The baud-id bytes by the table of 30_encoding.md R80: digit rows, letter rows, other printable bytes, and the rest. -/
def Obligations.BaudIdTable : Prop :=
  (∀ r ∈ baudTable, classifyBaudId r.1 = .digit r.2.2 ∧ classifyBaudId r.2.1 = .letter r.2.2) ∧
  ∀ c4 : Byte, (∀ r ∈ baudTable, c4 ≠ r.1 ∧ c4 ≠ r.2.1) →
    classifyBaudId c4 =
      if 0x20#8 ≤ c4 ∧ c4 ≤ 0x7E#8 ∧ c4 ≠ 0x2F#8 ∧ c4 ≠ 0x21#8 then .otherPrintable else .invalid

/-! ## The session -/

/-- A successful OPEN_P1 or OPEN_D0: the exchanges of 43_session.md R139 and R140, and the whole state of
10_state.md R47. Every cell is UNWRITTEN afterwards. The configurations are written out in the order of R23: BAUD,
CSIZE, PARITY, CLOCAL, RAW, STOPB, VTIME. -/
def Obligations.OpenStartsASession : Prop :=
  ∀ (p : Path) (term : Bool) (s : State) (acquires : List AcquireAnswer) (applies : List ApplyAnswer),
    s.ctl = .idle → s.status.isOpen = false → 8 ≤ s.capacity.toNat → s.env.acquire = .ok term :: acquires →
    s.env.apply = (if term then (if p = .d0 then [.ok, .ok] else [.ok]) else []) ++ applies →
    exec (if p = .d0 then .openD0 else .openP1) s = .next { s with
      status := { Status.reset with isOpen := true, path := p, term := term }
      config :=
        if p = .d0 then ⟨.b300, .seven, .even, true, true, false, s.vtime⟩
        else ⟨.b115200, .eight, .noParity, true, true, false, s.vtime⟩
      bufcap := s.capacity
      dumpS := s.dumpEn
      buf := []
      lastLen := 0
      crcComputed := 0
      crcEmbedded := 0
      failcnt := 0
      idLen := 0
      parseErrors := 0
      result := 0
      env := { s.env with acquire := acquires, apply := applies }
      out := s.out ++ [.request .acquire] ++
        (if term then
          [.request (.apply ⟨.b115200, .eight, .noParity, true, true, false, s.vtime⟩)]
        else []) ++
        (if term ∧ p = .d0 then
          [.request (.apply ⟨.b300, .seven, .even, true, true, false, s.vtime⟩)]
        else []) ++ [.response 0] }

/-- An OPEN that fails leaves the session as it was: ERR_SESSION when a session is open, when CAPACITY is below 8 and
when `Acquire` fails; ERR_CONFIG after one `Restore` when a baseline `Apply` fails (R139, R140; 60_exceptions.md R156,
R160). -/
def Obligations.FailedOpenLeavesNoTrace : Prop :=
  ∀ (p : Path) (s : State), s.ctl = .idle →
    (s.status.isOpen = true ∨ s.capacity.toNat < 8 → exec (if p = .d0 then .openD0 else .openP1) s =
      .next { s with result := 0xFFFFFFFF#32, out := s.out ++ [.response 0xFFFFFFFF#32] }) ∧
    (∀ acquires, s.status.isOpen = false → 8 ≤ s.capacity.toNat → s.env.acquire = .fail :: acquires →
      exec (if p = .d0 then .openD0 else .openP1) s = .next { s with
        result := 0xFFFFFFFF#32
        env := { s.env with acquire := acquires }
        out := s.out ++ [.request .acquire, .response 0xFFFFFFFF#32] }) ∧
    (∀ acquires applies d, s.status.isOpen = false → 8 ≤ s.capacity.toNat → s.env.acquire = .ok true :: acquires →
      s.env.apply = .fail :: applies → s.env.done = d + 1 →
      exec (if p = .d0 then .openD0 else .openP1) s = .next { s with
        result := 0xFFFFFFF7#32
        env := { s.env with acquire := acquires, apply := applies, done := d }
        out := s.out ++ [.request .acquire, .request (.apply (p1Baseline s.vtime)), .request .restore,
          .response 0xFFFFFFF7#32] }) ∧
    (∀ acquires applies d, p = .d0 → s.status.isOpen = false → 8 ≤ s.capacity.toNat →
      s.env.acquire = .ok true :: acquires → s.env.apply = .ok :: .fail :: applies → s.env.done = d + 1 →
      exec .openD0 s = .next { s with
        result := 0xFFFFFFF7#32
        env := { s.env with acquire := acquires, apply := applies, done := d }
        out := s.out ++ [.request .acquire, .request (.apply (p1Baseline s.vtime)),
          .request (.apply (d0Baseline (p1Baseline s.vtime))), .request .restore, .response 0xFFFFFFF7#32] })

/-- R146: CLOSE restores a terminal's settings, clears STATUS[5:0], CONFIG, BUFCAP, DUMP_S and the buffer, and keeps the
result registers and STATUS[15:6]; in a closed session it answers ERR_SESSION. -/
def Obligations.CloseEndsTheSession : Prop :=
  ∀ (s : State) (d : Nat), s.ctl = .idle →
    (s.status.isOpen = false → exec .close s =
      .next { s with result := 0xFFFFFFFF#32, out := s.out ++ [.response 0xFFFFFFFF#32] }) ∧
    (s.status.isOpen = true → s.env.done = d + (if s.status.term then 1 else 0) → exec .close s = .next { s with
      status := { s.status with isOpen := false, path := .p1, term := false, mode := .probe }
      config := ⟨.unset, .seven, .noParity, false, false, false, 0⟩
      bufcap := 0
      dumpS := false
      buf := []
      result := 0
      env := { s.env with done := d }
      out := s.out ++ (if s.status.term then [.request .restore] else []) ++ [.response 0] })

/-- A READ of a P1 session that finds a telegram (R141, R142, R144, R147 to R150): the telegram is parsed, its CRC is
computed and compared with the parser's, it is dumped when a sink is attached and the parser counted errors, and its
length is the response whatever the parse and the compare said. -/
def Obligations.P1ReadDeliversAndChecks : Prop :=
  ∀ (s : State) (junk : List RxAnswer) (n : Nat) (tel : List Byte) (rest : List RxAnswer) (o : ParseAnswer)
    (parses : List ParseAnswer) (d : Nat), Ready s → s.status.path = .p1 → 8 ≤ s.bufcap.toNat →
    Discarded s.params s.bufcap.toNat junk n → WithinBudget s.maxfail n → Framed tel →
    tel.length ≤ s.bufcap.toNat → s.env.rx = junk ++ rxBytes tel ++ rest → s.env.parse = o :: parses →
    s.env.done = d + (if s.dumpS = true ∧ 0 < o.errors then 1 else 0) →
    ∃ (buf : Memory) (work : Work),
      exec .read s = .next { s with
        status := { s.status with
          style := (classOf s.params.crc tel).1
          crcMismatch := match o.crc with | some c => decide (c ≠ (classOf s.params.crc tel).2) | none => false
          crcPresent := o.crc.isSome
          parseStatus := some o.status
          parseOk := decide (o.status = .accepted ∧ o.errors = 0)
          dumped := decide (s.dumpS = true ∧ 0 < o.errors) }
        crcComputed := (classOf s.params.crc tel).2
        crcEmbedded := o.crc.getD 0
        parseErrors := BitVec.ofNat 31 (min o.errors 0x7FFFFFFF)
        failcnt := saturate31 n
        lastLen := BitVec.ofNat 16 tel.length
        buf := buf
        work := work
        result := BitVec.ofNat 32 tel.length
        env := { s.env with rx := rest, parse := parses, done := d }
        out := s.out ++ rxRequests (junk.length + tel.length) ++ [.request (.parse tel)] ++
          (if s.dumpS = true ∧ 0 < o.errors then [.request (.dump tel)] else []) ++
          [.response (BitVec.ofNat 32 tel.length)] } ∧
      Holds buf 0 tel ∧ SameOutside s.buf buf 0 s.bufcap.toNat

/-- A READ of a P1 session that finds no telegram (R141 to R143): on a terminal in Probe mode it applies the other of
115200 and 9600 baud and answers 0, or ERR_CONFIG with CONFIG unchanged when that `Apply` fails; otherwise it answers 0
with no `Apply`. -/
def Obligations.P1ReadTogglesOnSilence : Prop :=
  ∀ (s : State) (stream rest : List RxAnswer) (n : Nat), Ready s → s.status.path = .p1 → 8 ≤ s.bufcap.toNat →
    Fruitless s.params s.bufcap.toNat s.maxfail stream n → s.env.rx = stream ++ rest →
    ∃ (buf : Memory) (work : Work), SameOutside s.buf buf 0 s.bufcap.toNat ∧
      ((s.status.term = false ∨ s.status.mode ≠ .probe) → exec .read s = .next { clearOutcome s with
        buf := buf
        work := work
        lastLen := 0
        failcnt := saturate31 n
        result := 0
        env := { s.env with rx := rest }
        out := s.out ++ rxRequests stream.length ++ [.response 0] }) ∧
      (∀ applies, s.status.term = true → s.status.mode = .probe → s.env.apply = .ok :: applies →
        exec .read s = .next { clearOutcome s with
          config := { s.config with baud := if s.config.baud = .b115200 then .b9600 else .b115200 }
          buf := buf
          work := work
          lastLen := 0
          failcnt := saturate31 n
          result := 0
          env := { s.env with rx := rest, apply := applies }
          out := s.out ++ rxRequests stream.length ++
            [.request (.apply { s.config with baud := if s.config.baud = .b115200 then .b9600 else .b115200 }),
              .response 0] }) ∧
      (∀ applies, s.status.term = true → s.status.mode = .probe → s.env.apply = .fail :: applies →
        exec .read s = .next { clearOutcome s with
          buf := buf
          work := work
          lastLen := 0
          failcnt := saturate31 n
          result := 0xFFFFFFF7#32
          env := { s.env with rx := rest, apply := applies }
          out := s.out ++ rxRequests stream.length ++
            [.request (.apply { s.config with baud := if s.config.baud = .b115200 then .b9600 else .b115200 }),
              .response 0xFFFFFFF7#32] })

/-- A READ of a D0 session that meets no failure (R141, R145, R147 to R149; that READ dispatches on PATH is the spec's
reading D17): the handshake of D0_READ, then the parse of the telegram proper alone, no CRC and no compare, and the
dump. -/
def Obligations.D0SessionReadDelivers : Prop :=
  ∀ (s : State) (ident body : List Byte) (c4 : Byte) (t : Terms) (rest : List RxAnswer) (txs : List TxAnswer)
    (applies : List ApplyAnswer) (o : ParseAnswer) (parses : List ParseAnswer) (d : Nat), Ready s →
    s.status.path = .d0 → IdLine ident → ident[4]? = some c4 → negotiate ident = .terms t →
    (∀ b ∈ body, BodyByte s.params.bodyCheck b) → ident.length + body.length + 1 ≤ s.bufcap.toNat →
    s.env.rx = rxBytes (ident ++ body ++ [0x21#8]) ++ rest → s.env.tx = handshakeTxAnswers s t ++ txs →
    s.env.apply = handshakeApplyAnswers s t ++ applies → s.env.parse = o :: parses →
    s.env.done = handshakeDone s t + (if s.dumpS = true ∧ 0 < o.errors then 1 else 0) + d →
    ∃ (buf : Memory) (work : Work),
      exec .read s = .next { s with
        status := { s.status with
          mode := t.mode
          style := .unclassed
          crcMismatch := false
          crcPresent := o.crc.isSome
          parseStatus := some o.status
          parseOk := decide (o.status = .accepted ∧ o.errors = 0)
          ackSent := t.ack
          signoffSent := s.status.term
          dumped := decide (s.dumpS = true ∧ 0 < o.errors) }
        config := switchedConfig s t
        crcComputed := 0
        crcEmbedded := o.crc.getD 0
        parseErrors := BitVec.ofNat 31 (min o.errors 0x7FFFFFFF)
        idLen := BitVec.ofNat 16 ident.length
        lastLen := BitVec.ofNat 16 (body.length + 1)
        buf := buf
        work := work
        result := BitVec.ofNat 32 (body.length + 1)
        env := { s.env with rx := rest, tx := txs, apply := applies, parse := parses, done := d }
        out := s.out ++ handshakeRequests s c4 t ident.length (body.length + 1) ++
          [.request (.parse (body ++ [0x21#8]))] ++
          (if s.dumpS = true ∧ 0 < o.errors then [.request (.dump (body ++ [0x21#8]))] else []) ++
          [.response (BitVec.ofNat 32 (body.length + 1))] } ∧
      Holds buf 0 (ident ++ body ++ [0x21#8]) ∧ SameOutside s.buf buf 0 (ident.length + body.length + 1)

/-! ## The whole machine -/

/-- Power-on reset (10_state.md R46, 70_reset_and_hazards.md R170): every register reads 0, the buffer has no cells,
CTL is IDLE and DUMP_S is 0. -/
def Obligations.ResetClearsEveryRegister : Prop :=
  (∀ w ∈ registerFile State.reset, w = 0) ∧ State.reset.buf = [] ∧ State.reset.ctl = .idle ∧
    State.reset.dumpS = false ∧ State.reset.status.mode = .probe ∧ State.reset.status.isOpen = false

/-- The reset state satisfies the invariant. -/
def Obligations.ResetSatisfiesInvariant : Prop := StateInv State.reset

/-- Every step keeps the invariant: the buffer stays canonical and within BUFCAP, MODE is never ModeD and CONFIG.STOPB
stays 0 (10_state.md R22, R23, R31), a closed session holds nothing, and every control state has what its rules rely on
(41_framer.md R97; 42_d0_handshake.md R128). -/
def Obligations.StepKeepsInvariant : Prop := ∀ s t : State, StateInv s → step s = .next t → StateInv t

/-- From any state that satisfies the invariant the machine answers a next state: no rule issues a BufWrite beyond
BUFCAP (20_memory.md R56), and no command is given to a busy block (10_state.md R48). -/
def Obligations.InvariantRulesOutStops : Prop := ∀ s : State, StateInv s → ∃ t, step s = .next t

/-- Exchanges are made one at a time, each after the answer to the one before (20_memory.md R60, 42_d0_handshake.md
R132): a move starts from an answered request (or from D0_ID_PARSE, which has none), consumes one answer (or none), and
puts out exactly one thing, the next request or, when the command ends, the response. So the request a running command
waits for is the last thing it put out, which every step keeps. -/
def Obligations.OneRequestOutstanding : Prop :=
  (∀ s t : State, move s = some (.next t) →
    ((∃ r, outstanding s = some r ∧ s.env.answered r = true ∧ t.env.answers + 1 = s.env.answers) ∨
      (s.ctl = .d0IdParse ∧ t.env = s.env)) ∧
    ((∃ r, t.ctl ≠ .idle ∧ outstanding t = some r ∧ t.out = s.out ++ [.request r]) ∨
      (t.ctl = .idle ∧ t.out = s.out ++ [.response t.result]))) ∧
  ∀ s t : State, (∀ r, outstanding s = some r → s.out.getLast? = some (.request r)) → step s = .next t →
    ∀ r, outstanding t = some r → t.out.getLast? = some (.request r)

/-- One response per command (43_session.md R135, 30_encoding.md R72): what a command puts out is requests and then,
when it ends, one response, which RESULT holds too unless the command is REG_READ. -/
def Obligations.OneResponsePerCommand : Prop :=
  ∀ (i : Instr) (s t : State), exec i s = .next t →
    ∃ requests : List Request, ∃ v : Word,
      t.out = s.out ++ requests.map .request ++ (if t.ctl = .idle then [.response v] else []) ∧
      (t.ctl = .idle → (∀ reg, i ≠ .regRead reg) → t.result = v) ∧
      ((∃ reg, i = .regRead reg) → t.ctl = .idle ∧ t.result = s.result)

/-- Only REG_WRITE changes CAPACITY, VTIME, MAXFAIL or DUMP_EN (10_state.md R24 to R27, R47); no command changes a
parameter or the words the host has still to send. -/
def Obligations.OnlyRegWriteChangesHostRegisters : Prop :=
  ∀ (i : Instr) (s t : State), exec i s = .next t → t.params = s.params ∧ t.env.host = s.env.host ∧
    ((∀ reg value, i ≠ .regWrite reg value) →
      t.capacity = s.capacity ∧ t.vtime = s.vtime ∧ t.maxfail = s.maxfail ∧ t.dumpEn = s.dumpEn)

/-- The session latches OPEN, PATH, TERM, BUFCAP and DUMP_S are written by OPEN_P1, OPEN_D0 and CLOSE only
(10_state.md R42): every other command keeps them, when it starts and when it goes on after a wait. -/
def Obligations.OnlyOpenAndCloseWriteLatches : Prop :=
  (∀ (i : Instr) (s t : State), exec i s = .next t → i ≠ .openP1 → i ≠ .openD0 → i ≠ .close →
    t.status.isOpen = s.status.isOpen ∧ t.status.path = s.status.path ∧ t.status.term = s.status.term ∧
      t.bufcap = s.bufcap ∧ t.dumpS = s.dumpS) ∧
  ∀ s t : State, step s = .next t → s.ctl ≠ .idle → s.ctl.opensOrCloses = false →
    t.status.isOpen = s.status.isOpen ∧ t.status.path = s.status.path ∧ t.status.term = s.status.term ∧
      t.bufcap = s.bufcap ∧ t.dumpS = s.dumpS

/-- Who changes MODE: OPEN sets Probe (10_state.md R22, R43) and so does CLOSE (43_session.md R146), a command that runs
the D0 engine may set ModeA, ModeB, ModeC or ModeE and never Probe or ModeD (42_d0_handshake.md R122), every other
command keeps it; when a command starts and when it goes on after a wait. READ runs the D0 engine in a session whose
PATH is D0 (R141, the spec's reading D17). -/
def Obligations.OnlyNegotiationSetsAMode : Prop :=
  (∀ (i : Instr) (s t : State), exec i s = .next t → t.status.mode ≠ s.status.mode →
    ((i = .openP1 ∨ i = .openD0 ∨ i = .close) ∧ t.status.mode = .probe) ∨
      (RunsD0 i s ∧ t.status.mode ≠ .probe ∧ t.status.mode ≠ .modeD)) ∧
  ∀ s t : State, step s = .next t → s.ctl ≠ .idle → t.status.mode ≠ s.status.mode →
    (s.ctl.opensOrCloses = true ∧ t.status.mode = .probe) ∨
      (s.ctl.runsD0 = true ∧ t.status.mode ≠ .probe ∧ t.status.mode ≠ .modeD)

/-- Only the framer and the D0 engine write cells, and OPEN and CLOSE discard them (10_state.md R31): every other command
leaves every cell as it was. -/
def Obligations.OnlyReadsWriteTheBuffer : Prop :=
  ∀ (i : Instr) (s t : State), exec i s = .next t →
    i ≠ .frameRead → i ≠ .d0Read → i ≠ .read → i ≠ .openP1 → i ≠ .openD0 → i ≠ .close →
    ∀ a, t.buf.read a = s.buf.read a

/-- The internal registers are undefined between commands and no command reads one before it writes it (10_state.md R32,
42_d0_handshake.md R134): a command does the same whatever they held, but for what they hold afterwards. -/
def Obligations.InternalRegistersDoNotMatter : Prop :=
  ∀ (i : Instr) (s t : State) (w : Work), exec i s = .next t →
    ∃ w', exec i { s with work := w } = .next { t with work := w' }
end

