-- ==== Sys2Proof/Laws/Codec.lean ====
section
/-! SUPPORT. The command word as a number, and its fields. -/

namespace Sys2Proof

theorem commandWord_toNat (o r : BitVec 8) (i : BitVec 16) :
    (commandWord o r i).toNat = o.toNat * 2 ^ 24 + r.toNat * 2 ^ 16 + i.toNat := by
  have h1 : (commandWord o r i).toNat = (o ++ r).toNat <<< 16 ||| i.toNat := BitVec.toNat_append (o ++ r) i
  have h2 : (o ++ r).toNat = o.toNat <<< 8 ||| r.toNat := BitVec.toNat_append o r
  rw [h1, h2, ← Nat.shiftLeft_add_eq_or_of_lt r.isLt, ← Nat.shiftLeft_add_eq_or_of_lt i.isLt]
  simp only [Nat.shiftLeft_eq]
  omega

theorem opcField_toNat (w : Word) : (opcField w).toNat = w.toNat / 2 ^ 24 := by
  have := w.isLt
  simp only [opcField, BitVec.extractLsb'_toNat, Nat.shiftRight_eq_div_pow]
  omega

theorem regField_toNat (w : Word) : (regField w).toNat = w.toNat / 2 ^ 16 % 256 := by
  simp only [regField, BitVec.extractLsb'_toNat, Nat.shiftRight_eq_div_pow]

theorem immField_toNat (w : Word) : (immField w).toNat = w.toNat % 65536 := by
  simp [immField]

theorem opcField_commandWord (o r : BitVec 8) (i : BitVec 16) : opcField (commandWord o r i) = o := by
  apply BitVec.eq_of_toNat_eq
  have := r.isLt
  have := i.isLt
  rw [opcField_toNat, commandWord_toNat]
  omega

theorem regField_commandWord (o r : BitVec 8) (i : BitVec 16) : regField (commandWord o r i) = r := by
  apply BitVec.eq_of_toNat_eq
  have := r.isLt
  have := i.isLt
  rw [regField_toNat, commandWord_toNat]
  omega

theorem immField_commandWord (o r : BitVec 8) (i : BitVec 16) : immField (commandWord o r i) = i := by
  apply BitVec.eq_of_toNat_eq
  have := r.isLt
  have := i.isLt
  rw [immField_toNat, commandWord_toNat]
  omega

/-- A word is made of its three fields (30_encoding.md R67). -/
theorem commandWord_fields (w : Word) : commandWord (opcField w) (regField w) (immField w) = w := by
  apply BitVec.eq_of_toNat_eq
  rw [commandWord_toNat, opcField_toNat, regField_toNat, immField_toNat]
  omega

end Sys2Proof
end

