-- ==== Sys2Proof/Laws/Memory.lean ====
section
/-! SUPPORT. The buffer as data: a read after a write, and the canonical form. -/

namespace Sys2Proof.Machine

@[simp] theorem Memory.read_nil (a : Nat) : Memory.read [] a = none := rfl

/-- A read at the offset just written gives the byte written (20_memory.md R59). -/
@[simp] theorem Memory.read_write_same (m : Memory) (a : Nat) (b : Byte) : (m.write a b).read a = some b := by
  induction m with
  | nil => simp [Memory.write, Memory.read]
  | cons e m ih =>
    obtain ⟨k, v⟩ := e
    by_cases h1 : a < k
    · simp [Memory.write, h1, Memory.read]
    · by_cases h2 : a = k
      · simp [Memory.write, h2, Memory.read]
      · have h3 : ¬ k = a := fun h => h2 h.symm
        simp [Memory.write, h1, h2, h3, Memory.read, ih]

/-- A write leaves every other offset as it was. -/
theorem Memory.read_write_ne (m : Memory) {a i : Nat} (b : Byte) (h : i ≠ a) :
    (m.write a b).read i = m.read i := by
  have ha : ¬ a = i := fun e => h e.symm
  induction m with
  | nil => simp [Memory.write, Memory.read, ha]
  | cons e m ih =>
    obtain ⟨k, v⟩ := e
    by_cases h1 : a < k
    · simp [Memory.write, h1, Memory.read, ha]
    · by_cases h2 : a = k
      · subst h2; simp [Memory.write, Memory.read, ha]
      · simp only [Memory.write, h1, h2, if_false, Memory.read, ih]

/-- What a read gives after a write. -/
theorem Memory.read_write (m : Memory) (a i : Nat) (b : Byte) :
    (m.write a b).read i = if i = a then some b else m.read i := by
  by_cases h : i = a
  · subst h; simp
  · simp [h, Memory.read_write_ne m b h]

/-- The offsets after a write: those before, and the one written. -/
theorem Memory.mem_write {m : Memory} {a : Nat} {b : Byte} {c : Host.Cell} (h : c ∈ m.write a b) :
    c = (a, b) ∨ c ∈ m := by
  induction m with
  | nil => simpa [Memory.write] using h
  | cons e m ih =>
    obtain ⟨k, v⟩ := e
    by_cases h1 : a < k
    · simpa [Memory.write, h1] using h
    · by_cases h2 : a = k
      · subst h2
        simp only [Memory.write, lt_irrefl, if_false, if_true, List.mem_cons] at h
        exact h.imp id (List.mem_cons_of_mem _)
      · simp only [Memory.write, h1, h2, if_false, List.mem_cons] at h
        rcases h with h | h
        · exact .inr (by simp [h])
        · exact (ih h).imp id (List.mem_cons_of_mem _)

/-- A write keeps the canonical form. -/
theorem Memory.write_wf {m : Memory} (h : m.wf) (a : Nat) (b : Byte) : (m.write a b).wf := by
  induction m with
  | nil => simp [Memory.write, Memory.wf]
  | cons e m ih =>
    obtain ⟨k, v⟩ := e
    have hm : Memory.wf m := (List.pairwise_cons.1 h).2
    have hk : ∀ c ∈ m, k < c.1 := (List.pairwise_cons.1 h).1
    by_cases h1 : a < k
    · simp only [Memory.write, h1, if_true, Memory.wf, List.pairwise_cons, List.mem_cons]
      refine ⟨?_, hk, hm⟩
      rintro c (rfl | hc)
      · exact h1
      · exact h1.trans (hk c hc)
    · by_cases h2 : a = k
      · subst h2
        simpa [Memory.write, Memory.wf] using ⟨fun x y hc => hk (x, y) hc, hm⟩
      · simp only [Memory.write, h1, h2, if_false, Memory.wf, List.pairwise_cons]
        refine ⟨fun c hc => ?_, ih hm⟩
        rcases Memory.mem_write hc with rfl | hc
        · exact lt_of_le_of_ne (Nat.le_of_not_lt h1) (Ne.symm h2)
        · exact hk c hc

/-- Two canonical buffers that read alike at every offset are the same data. -/
theorem Memory.ext_of_read {m n : Memory} (hm : m.wf) (hn : n.wf) (h : ∀ i, m.read i = n.read i) : m = n := by
  have low : ∀ {l : Memory} {k : Nat}, (∀ c ∈ l, k < c.1) → l.read k = none := by
    intro l k hl
    induction l with
    | nil => rfl
    | cons c l ih =>
      have : ¬ c.1 = k := Nat.ne_of_gt (hl c (by simp))
      simp [Memory.read, this, ih fun d hd => hl d (List.mem_cons_of_mem _ hd)]
  induction m generalizing n with
  | nil =>
    cases n with
    | nil => rfl
    | cons d n => have := h d.1; simp [Memory.read] at this
  | cons c m ih =>
    have hc := List.pairwise_cons.1 hm
    cases n with
    | nil => have := h c.1; simp [Memory.read] at this
    | cons d n =>
      have hd := List.pairwise_cons.1 hn
      have key : c.1 = d.1 := by
        rcases Nat.lt_trichotomy c.1 d.1 with hlt | heq | hlt
        · have h1 := h c.1
          rw [low (l := d :: n) (k := c.1)] at h1
          · simp [Memory.read] at h1
          · intro e he
            rcases List.mem_cons.1 he with rfl | he
            · exact hlt
            · exact hlt.trans (hd.1 e he)
        · exact heq
        · have h1 := h d.1
          rw [low (l := c :: m) (k := d.1)] at h1
          · simp [Memory.read] at h1
          · intro e he
            rcases List.mem_cons.1 he with rfl | he
            · exact hlt
            · exact hlt.trans (hc.1 e he)
      have hv : c.2 = d.2 := by have := h c.1; simpa [Memory.read, key] using this
      have hcd : c = d := Prod.ext key hv
      subst hcd
      congr 1
      apply ih hc.2 hd.2
      intro i
      by_cases hi : c.1 = i
      · subst hi; rw [low hc.1, low hd.1]
      · have := h i
        simpa [Memory.read, hi] using this

end Sys2Proof.Machine
end

