-- ==== Sys2Proof/Laws/State.lean ====
section
/-! SUPPORT. One lemma per field per update of the state, each true by rfl. -/

namespace Sys2Proof.Machine

/-! ## issue -/

@[simp] theorem issue_status (r : Request) (c : Ctl) (s : State) : (issue r c s).status = s.status := rfl
@[simp] theorem issue_config (r : Request) (c : Ctl) (s : State) : (issue r c s).config = s.config := rfl
@[simp] theorem issue_capacity (r : Request) (c : Ctl) (s : State) : (issue r c s).capacity = s.capacity := rfl
@[simp] theorem issue_vtime (r : Request) (c : Ctl) (s : State) : (issue r c s).vtime = s.vtime := rfl
@[simp] theorem issue_maxfail (r : Request) (c : Ctl) (s : State) : (issue r c s).maxfail = s.maxfail := rfl
@[simp] theorem issue_dumpEn (r : Request) (c : Ctl) (s : State) : (issue r c s).dumpEn = s.dumpEn := rfl
@[simp] theorem issue_lastLen (r : Request) (c : Ctl) (s : State) : (issue r c s).lastLen = s.lastLen := rfl
@[simp] theorem issue_crcComputed (r : Request) (c : Ctl) (s : State) :
    (issue r c s).crcComputed = s.crcComputed := rfl
@[simp] theorem issue_crcEmbedded (r : Request) (c : Ctl) (s : State) :
    (issue r c s).crcEmbedded = s.crcEmbedded := rfl
@[simp] theorem issue_failcnt (r : Request) (c : Ctl) (s : State) : (issue r c s).failcnt = s.failcnt := rfl
@[simp] theorem issue_idLen (r : Request) (c : Ctl) (s : State) : (issue r c s).idLen = s.idLen := rfl
@[simp] theorem issue_parseErrors (r : Request) (c : Ctl) (s : State) :
    (issue r c s).parseErrors = s.parseErrors := rfl
@[simp] theorem issue_result (r : Request) (c : Ctl) (s : State) : (issue r c s).result = s.result := rfl
@[simp] theorem issue_bufcap (r : Request) (c : Ctl) (s : State) : (issue r c s).bufcap = s.bufcap := rfl
@[simp] theorem issue_buf (r : Request) (c : Ctl) (s : State) : (issue r c s).buf = s.buf := rfl
@[simp] theorem issue_dumpS (r : Request) (c : Ctl) (s : State) : (issue r c s).dumpS = s.dumpS := rfl
@[simp] theorem issue_ctl (r : Request) (c : Ctl) (s : State) : (issue r c s).ctl = c := rfl
@[simp] theorem issue_work (r : Request) (c : Ctl) (s : State) : (issue r c s).work = s.work := rfl
@[simp] theorem issue_params (r : Request) (c : Ctl) (s : State) : (issue r c s).params = s.params := rfl
@[simp] theorem issue_env (r : Request) (c : Ctl) (s : State) : (issue r c s).env = s.env := rfl
@[simp] theorem issue_draws (r : Request) (c : Ctl) (s : State) : (issue r c s).draws = s.draws := rfl
@[simp] theorem issue_out (r : Request) (c : Ctl) (s : State) : (issue r c s).out = s.out ++ [.request r] := rfl

/-! ## answer -/

@[simp] theorem answer_status (v : Word) (s : State) : (answer v s).status = s.status := rfl
@[simp] theorem answer_config (v : Word) (s : State) : (answer v s).config = s.config := rfl
@[simp] theorem answer_capacity (v : Word) (s : State) : (answer v s).capacity = s.capacity := rfl
@[simp] theorem answer_vtime (v : Word) (s : State) : (answer v s).vtime = s.vtime := rfl
@[simp] theorem answer_maxfail (v : Word) (s : State) : (answer v s).maxfail = s.maxfail := rfl
@[simp] theorem answer_dumpEn (v : Word) (s : State) : (answer v s).dumpEn = s.dumpEn := rfl
@[simp] theorem answer_lastLen (v : Word) (s : State) : (answer v s).lastLen = s.lastLen := rfl
@[simp] theorem answer_crcComputed (v : Word) (s : State) : (answer v s).crcComputed = s.crcComputed := rfl
@[simp] theorem answer_crcEmbedded (v : Word) (s : State) : (answer v s).crcEmbedded = s.crcEmbedded := rfl
@[simp] theorem answer_failcnt (v : Word) (s : State) : (answer v s).failcnt = s.failcnt := rfl
@[simp] theorem answer_idLen (v : Word) (s : State) : (answer v s).idLen = s.idLen := rfl
@[simp] theorem answer_parseErrors (v : Word) (s : State) : (answer v s).parseErrors = s.parseErrors := rfl
@[simp] theorem answer_result (v : Word) (s : State) : (answer v s).result = s.result := rfl
@[simp] theorem answer_bufcap (v : Word) (s : State) : (answer v s).bufcap = s.bufcap := rfl
@[simp] theorem answer_buf (v : Word) (s : State) : (answer v s).buf = s.buf := rfl
@[simp] theorem answer_dumpS (v : Word) (s : State) : (answer v s).dumpS = s.dumpS := rfl
@[simp] theorem answer_ctl (v : Word) (s : State) : (answer v s).ctl = .idle := rfl
@[simp] theorem answer_work (v : Word) (s : State) : (answer v s).work = s.work := rfl
@[simp] theorem answer_params (v : Word) (s : State) : (answer v s).params = s.params := rfl
@[simp] theorem answer_env (v : Word) (s : State) : (answer v s).env = s.env := rfl
@[simp] theorem answer_draws (v : Word) (s : State) : (answer v s).draws = s.draws := rfl
@[simp] theorem answer_out (v : Word) (s : State) : (answer v s).out = s.out ++ [.response v] := rfl

/-! ## respond -/

@[simp] theorem respond_status (v : Word) (s : State) : (respond v s).status = s.status := rfl
@[simp] theorem respond_config (v : Word) (s : State) : (respond v s).config = s.config := rfl
@[simp] theorem respond_capacity (v : Word) (s : State) : (respond v s).capacity = s.capacity := rfl
@[simp] theorem respond_vtime (v : Word) (s : State) : (respond v s).vtime = s.vtime := rfl
@[simp] theorem respond_maxfail (v : Word) (s : State) : (respond v s).maxfail = s.maxfail := rfl
@[simp] theorem respond_dumpEn (v : Word) (s : State) : (respond v s).dumpEn = s.dumpEn := rfl
@[simp] theorem respond_lastLen (v : Word) (s : State) : (respond v s).lastLen = s.lastLen := rfl
@[simp] theorem respond_crcComputed (v : Word) (s : State) : (respond v s).crcComputed = s.crcComputed := rfl
@[simp] theorem respond_crcEmbedded (v : Word) (s : State) : (respond v s).crcEmbedded = s.crcEmbedded := rfl
@[simp] theorem respond_failcnt (v : Word) (s : State) : (respond v s).failcnt = s.failcnt := rfl
@[simp] theorem respond_idLen (v : Word) (s : State) : (respond v s).idLen = s.idLen := rfl
@[simp] theorem respond_parseErrors (v : Word) (s : State) : (respond v s).parseErrors = s.parseErrors := rfl
@[simp] theorem respond_result (v : Word) (s : State) : (respond v s).result = v := rfl
@[simp] theorem respond_bufcap (v : Word) (s : State) : (respond v s).bufcap = s.bufcap := rfl
@[simp] theorem respond_buf (v : Word) (s : State) : (respond v s).buf = s.buf := rfl
@[simp] theorem respond_dumpS (v : Word) (s : State) : (respond v s).dumpS = s.dumpS := rfl
@[simp] theorem respond_ctl (v : Word) (s : State) : (respond v s).ctl = .idle := rfl
@[simp] theorem respond_work (v : Word) (s : State) : (respond v s).work = s.work := rfl
@[simp] theorem respond_params (v : Word) (s : State) : (respond v s).params = s.params := rfl
@[simp] theorem respond_env (v : Word) (s : State) : (respond v s).env = s.env := rfl
@[simp] theorem respond_draws (v : Word) (s : State) : (respond v s).draws = s.draws := rfl
@[simp] theorem respond_out (v : Word) (s : State) : (respond v s).out = s.out ++ [.response v] := rfl

/-! ## addFailures -/

@[simp] theorem addFailures_status (k : Nat) (s : State) : (addFailures k s).status = s.status := rfl
@[simp] theorem addFailures_config (k : Nat) (s : State) : (addFailures k s).config = s.config := rfl
@[simp] theorem addFailures_capacity (k : Nat) (s : State) : (addFailures k s).capacity = s.capacity := rfl
@[simp] theorem addFailures_vtime (k : Nat) (s : State) : (addFailures k s).vtime = s.vtime := rfl
@[simp] theorem addFailures_maxfail (k : Nat) (s : State) : (addFailures k s).maxfail = s.maxfail := rfl
@[simp] theorem addFailures_dumpEn (k : Nat) (s : State) : (addFailures k s).dumpEn = s.dumpEn := rfl
@[simp] theorem addFailures_lastLen (k : Nat) (s : State) : (addFailures k s).lastLen = s.lastLen := rfl
@[simp] theorem addFailures_crcComputed (k : Nat) (s : State) : (addFailures k s).crcComputed = s.crcComputed := rfl
@[simp] theorem addFailures_crcEmbedded (k : Nat) (s : State) : (addFailures k s).crcEmbedded = s.crcEmbedded := rfl
@[simp] theorem addFailures_failcnt (k : Nat) (s : State) :
    (addFailures k s).failcnt = saturate31 (s.failcnt.toNat + k) := rfl
@[simp] theorem addFailures_idLen (k : Nat) (s : State) : (addFailures k s).idLen = s.idLen := rfl
@[simp] theorem addFailures_parseErrors (k : Nat) (s : State) : (addFailures k s).parseErrors = s.parseErrors := rfl
@[simp] theorem addFailures_result (k : Nat) (s : State) : (addFailures k s).result = s.result := rfl
@[simp] theorem addFailures_bufcap (k : Nat) (s : State) : (addFailures k s).bufcap = s.bufcap := rfl
@[simp] theorem addFailures_buf (k : Nat) (s : State) : (addFailures k s).buf = s.buf := rfl
@[simp] theorem addFailures_dumpS (k : Nat) (s : State) : (addFailures k s).dumpS = s.dumpS := rfl
@[simp] theorem addFailures_ctl (k : Nat) (s : State) : (addFailures k s).ctl = s.ctl := rfl
@[simp] theorem addFailures_work (k : Nat) (s : State) : (addFailures k s).work = s.work := rfl
@[simp] theorem addFailures_params (k : Nat) (s : State) : (addFailures k s).params = s.params := rfl
@[simp] theorem addFailures_env (k : Nat) (s : State) : (addFailures k s).env = s.env := rfl
@[simp] theorem addFailures_draws (k : Nat) (s : State) : (addFailures k s).draws = s.draws := rfl
@[simp] theorem addFailures_out (k : Nat) (s : State) : (addFailures k s).out = s.out := rfl

/-! ## setCrc -/

@[simp] theorem setCrc_status (st : Style) (c : BitVec 16) (s : State) :
    (setCrc st c s).status = { s.status with style := st } := rfl
@[simp] theorem setCrc_config (st : Style) (c : BitVec 16) (s : State) : (setCrc st c s).config = s.config := rfl
@[simp] theorem setCrc_capacity (st : Style) (c : BitVec 16) (s : State) :
    (setCrc st c s).capacity = s.capacity := rfl
@[simp] theorem setCrc_vtime (st : Style) (c : BitVec 16) (s : State) : (setCrc st c s).vtime = s.vtime := rfl
@[simp] theorem setCrc_maxfail (st : Style) (c : BitVec 16) (s : State) : (setCrc st c s).maxfail = s.maxfail := rfl
@[simp] theorem setCrc_dumpEn (st : Style) (c : BitVec 16) (s : State) : (setCrc st c s).dumpEn = s.dumpEn := rfl
@[simp] theorem setCrc_lastLen (st : Style) (c : BitVec 16) (s : State) : (setCrc st c s).lastLen = s.lastLen := rfl
@[simp] theorem setCrc_crcComputed (st : Style) (c : BitVec 16) (s : State) : (setCrc st c s).crcComputed = c := rfl
@[simp] theorem setCrc_crcEmbedded (st : Style) (c : BitVec 16) (s : State) :
    (setCrc st c s).crcEmbedded = s.crcEmbedded := rfl
@[simp] theorem setCrc_failcnt (st : Style) (c : BitVec 16) (s : State) : (setCrc st c s).failcnt = s.failcnt := rfl
@[simp] theorem setCrc_idLen (st : Style) (c : BitVec 16) (s : State) : (setCrc st c s).idLen = s.idLen := rfl
@[simp] theorem setCrc_parseErrors (st : Style) (c : BitVec 16) (s : State) :
    (setCrc st c s).parseErrors = s.parseErrors := rfl
@[simp] theorem setCrc_result (st : Style) (c : BitVec 16) (s : State) : (setCrc st c s).result = s.result := rfl
@[simp] theorem setCrc_bufcap (st : Style) (c : BitVec 16) (s : State) : (setCrc st c s).bufcap = s.bufcap := rfl
@[simp] theorem setCrc_buf (st : Style) (c : BitVec 16) (s : State) : (setCrc st c s).buf = s.buf := rfl
@[simp] theorem setCrc_dumpS (st : Style) (c : BitVec 16) (s : State) : (setCrc st c s).dumpS = s.dumpS := rfl
@[simp] theorem setCrc_ctl (st : Style) (c : BitVec 16) (s : State) : (setCrc st c s).ctl = s.ctl := rfl
@[simp] theorem setCrc_work (st : Style) (c : BitVec 16) (s : State) : (setCrc st c s).work = s.work := rfl
@[simp] theorem setCrc_params (st : Style) (c : BitVec 16) (s : State) : (setCrc st c s).params = s.params := rfl
@[simp] theorem setCrc_env (st : Style) (c : BitVec 16) (s : State) : (setCrc st c s).env = s.env := rfl
@[simp] theorem setCrc_draws (st : Style) (c : BitVec 16) (s : State) : (setCrc st c s).draws = s.draws := rfl
@[simp] theorem setCrc_out (st : Style) (c : BitVec 16) (s : State) : (setCrc st c s).out = s.out := rfl

/-! ## clearOutcome -/

@[simp] theorem clearOutcome_status (s : State) :
    (clearOutcome s).status = { s.status with style := .unclassed, crcMismatch := false, crcPresent := false, parseStatus := none, parseOk := false, dumped := false } := rfl
@[simp] theorem clearOutcome_config (s : State) : (clearOutcome s).config = s.config := rfl
@[simp] theorem clearOutcome_capacity (s : State) : (clearOutcome s).capacity = s.capacity := rfl
@[simp] theorem clearOutcome_vtime (s : State) : (clearOutcome s).vtime = s.vtime := rfl
@[simp] theorem clearOutcome_maxfail (s : State) : (clearOutcome s).maxfail = s.maxfail := rfl
@[simp] theorem clearOutcome_dumpEn (s : State) : (clearOutcome s).dumpEn = s.dumpEn := rfl
@[simp] theorem clearOutcome_lastLen (s : State) : (clearOutcome s).lastLen = s.lastLen := rfl
@[simp] theorem clearOutcome_crcComputed (s : State) : (clearOutcome s).crcComputed = 0 := rfl
@[simp] theorem clearOutcome_crcEmbedded (s : State) : (clearOutcome s).crcEmbedded = 0 := rfl
@[simp] theorem clearOutcome_failcnt (s : State) : (clearOutcome s).failcnt = s.failcnt := rfl
@[simp] theorem clearOutcome_idLen (s : State) : (clearOutcome s).idLen = s.idLen := rfl
@[simp] theorem clearOutcome_parseErrors (s : State) : (clearOutcome s).parseErrors = 0 := rfl
@[simp] theorem clearOutcome_result (s : State) : (clearOutcome s).result = s.result := rfl
@[simp] theorem clearOutcome_bufcap (s : State) : (clearOutcome s).bufcap = s.bufcap := rfl
@[simp] theorem clearOutcome_buf (s : State) : (clearOutcome s).buf = s.buf := rfl
@[simp] theorem clearOutcome_dumpS (s : State) : (clearOutcome s).dumpS = s.dumpS := rfl
@[simp] theorem clearOutcome_ctl (s : State) : (clearOutcome s).ctl = s.ctl := rfl
@[simp] theorem clearOutcome_work (s : State) : (clearOutcome s).work = s.work := rfl
@[simp] theorem clearOutcome_params (s : State) : (clearOutcome s).params = s.params := rfl
@[simp] theorem clearOutcome_env (s : State) : (clearOutcome s).env = s.env := rfl
@[simp] theorem clearOutcome_draws (s : State) : (clearOutcome s).draws = s.draws := rfl
@[simp] theorem clearOutcome_out (s : State) : (clearOutcome s).out = s.out := rfl

/-! ## recordParse -/

@[simp] theorem recordParse_status (o : ParseAnswer) (s : State) :
    (recordParse o s).status = { s.status with parseStatus := some o.status, parseOk := decide (o.status = .accepted) && decide (o.errors = 0), crcPresent := if o.crc.isSome then true else s.status.crcPresent } := rfl
@[simp] theorem recordParse_config (o : ParseAnswer) (s : State) : (recordParse o s).config = s.config := rfl
@[simp] theorem recordParse_capacity (o : ParseAnswer) (s : State) : (recordParse o s).capacity = s.capacity := rfl
@[simp] theorem recordParse_vtime (o : ParseAnswer) (s : State) : (recordParse o s).vtime = s.vtime := rfl
@[simp] theorem recordParse_maxfail (o : ParseAnswer) (s : State) : (recordParse o s).maxfail = s.maxfail := rfl
@[simp] theorem recordParse_dumpEn (o : ParseAnswer) (s : State) : (recordParse o s).dumpEn = s.dumpEn := rfl
@[simp] theorem recordParse_lastLen (o : ParseAnswer) (s : State) : (recordParse o s).lastLen = s.lastLen := rfl
@[simp] theorem recordParse_crcComputed (o : ParseAnswer) (s : State) :
    (recordParse o s).crcComputed = s.crcComputed := rfl
@[simp] theorem recordParse_crcEmbedded (o : ParseAnswer) (s : State) :
    (recordParse o s).crcEmbedded = o.crc.getD s.crcEmbedded := rfl
@[simp] theorem recordParse_failcnt (o : ParseAnswer) (s : State) : (recordParse o s).failcnt = s.failcnt := rfl
@[simp] theorem recordParse_idLen (o : ParseAnswer) (s : State) : (recordParse o s).idLen = s.idLen := rfl
@[simp] theorem recordParse_parseErrors (o : ParseAnswer) (s : State) :
    (recordParse o s).parseErrors = saturate31 o.errors := rfl
@[simp] theorem recordParse_result (o : ParseAnswer) (s : State) : (recordParse o s).result = s.result := rfl
@[simp] theorem recordParse_bufcap (o : ParseAnswer) (s : State) : (recordParse o s).bufcap = s.bufcap := rfl
@[simp] theorem recordParse_buf (o : ParseAnswer) (s : State) : (recordParse o s).buf = s.buf := rfl
@[simp] theorem recordParse_dumpS (o : ParseAnswer) (s : State) : (recordParse o s).dumpS = s.dumpS := rfl
@[simp] theorem recordParse_ctl (o : ParseAnswer) (s : State) : (recordParse o s).ctl = s.ctl := rfl
@[simp] theorem recordParse_work (o : ParseAnswer) (s : State) : (recordParse o s).work = s.work := rfl
@[simp] theorem recordParse_params (o : ParseAnswer) (s : State) : (recordParse o s).params = s.params := rfl
@[simp] theorem recordParse_env (o : ParseAnswer) (s : State) : (recordParse o s).env = s.env := rfl
@[simp] theorem recordParse_draws (o : ParseAnswer) (s : State) : (recordParse o s).draws = s.draws := rfl
@[simp] theorem recordParse_out (o : ParseAnswer) (s : State) : (recordParse o s).out = s.out := rfl

/-! ## compareCrc -/

@[simp] theorem compareCrc_status (c : BitVec 16) (s : State) :
    (compareCrc c s).status = { s.status with crcMismatch := s.status.crcPresent && decide (s.crcEmbedded ≠ c) } := rfl
@[simp] theorem compareCrc_config (c : BitVec 16) (s : State) : (compareCrc c s).config = s.config := rfl
@[simp] theorem compareCrc_capacity (c : BitVec 16) (s : State) : (compareCrc c s).capacity = s.capacity := rfl
@[simp] theorem compareCrc_vtime (c : BitVec 16) (s : State) : (compareCrc c s).vtime = s.vtime := rfl
@[simp] theorem compareCrc_maxfail (c : BitVec 16) (s : State) : (compareCrc c s).maxfail = s.maxfail := rfl
@[simp] theorem compareCrc_dumpEn (c : BitVec 16) (s : State) : (compareCrc c s).dumpEn = s.dumpEn := rfl
@[simp] theorem compareCrc_lastLen (c : BitVec 16) (s : State) : (compareCrc c s).lastLen = s.lastLen := rfl
@[simp] theorem compareCrc_crcComputed (c : BitVec 16) (s : State) :
    (compareCrc c s).crcComputed = s.crcComputed := rfl
@[simp] theorem compareCrc_crcEmbedded (c : BitVec 16) (s : State) :
    (compareCrc c s).crcEmbedded = s.crcEmbedded := rfl
@[simp] theorem compareCrc_failcnt (c : BitVec 16) (s : State) : (compareCrc c s).failcnt = s.failcnt := rfl
@[simp] theorem compareCrc_idLen (c : BitVec 16) (s : State) : (compareCrc c s).idLen = s.idLen := rfl
@[simp] theorem compareCrc_parseErrors (c : BitVec 16) (s : State) :
    (compareCrc c s).parseErrors = s.parseErrors := rfl
@[simp] theorem compareCrc_result (c : BitVec 16) (s : State) : (compareCrc c s).result = s.result := rfl
@[simp] theorem compareCrc_bufcap (c : BitVec 16) (s : State) : (compareCrc c s).bufcap = s.bufcap := rfl
@[simp] theorem compareCrc_buf (c : BitVec 16) (s : State) : (compareCrc c s).buf = s.buf := rfl
@[simp] theorem compareCrc_dumpS (c : BitVec 16) (s : State) : (compareCrc c s).dumpS = s.dumpS := rfl
@[simp] theorem compareCrc_ctl (c : BitVec 16) (s : State) : (compareCrc c s).ctl = s.ctl := rfl
@[simp] theorem compareCrc_work (c : BitVec 16) (s : State) : (compareCrc c s).work = s.work := rfl
@[simp] theorem compareCrc_params (c : BitVec 16) (s : State) : (compareCrc c s).params = s.params := rfl
@[simp] theorem compareCrc_env (c : BitVec 16) (s : State) : (compareCrc c s).env = s.env := rfl
@[simp] theorem compareCrc_draws (c : BitVec 16) (s : State) : (compareCrc c s).draws = s.draws := rfl
@[simp] theorem compareCrc_out (c : BitVec 16) (s : State) : (compareCrc c s).out = s.out := rfl

/-! ## clearD0Flags -/

@[simp] theorem clearD0Flags_status (s : State) :
    (clearD0Flags s).status = { s.status with ackSent := false, signoffSent := false } := rfl
@[simp] theorem clearD0Flags_config (s : State) : (clearD0Flags s).config = s.config := rfl
@[simp] theorem clearD0Flags_capacity (s : State) : (clearD0Flags s).capacity = s.capacity := rfl
@[simp] theorem clearD0Flags_vtime (s : State) : (clearD0Flags s).vtime = s.vtime := rfl
@[simp] theorem clearD0Flags_maxfail (s : State) : (clearD0Flags s).maxfail = s.maxfail := rfl
@[simp] theorem clearD0Flags_dumpEn (s : State) : (clearD0Flags s).dumpEn = s.dumpEn := rfl
@[simp] theorem clearD0Flags_lastLen (s : State) : (clearD0Flags s).lastLen = 0 := rfl
@[simp] theorem clearD0Flags_crcComputed (s : State) : (clearD0Flags s).crcComputed = s.crcComputed := rfl
@[simp] theorem clearD0Flags_crcEmbedded (s : State) : (clearD0Flags s).crcEmbedded = s.crcEmbedded := rfl
@[simp] theorem clearD0Flags_failcnt (s : State) : (clearD0Flags s).failcnt = s.failcnt := rfl
@[simp] theorem clearD0Flags_idLen (s : State) : (clearD0Flags s).idLen = 0 := rfl
@[simp] theorem clearD0Flags_parseErrors (s : State) : (clearD0Flags s).parseErrors = s.parseErrors := rfl
@[simp] theorem clearD0Flags_result (s : State) : (clearD0Flags s).result = s.result := rfl
@[simp] theorem clearD0Flags_bufcap (s : State) : (clearD0Flags s).bufcap = s.bufcap := rfl
@[simp] theorem clearD0Flags_buf (s : State) : (clearD0Flags s).buf = s.buf := rfl
@[simp] theorem clearD0Flags_dumpS (s : State) : (clearD0Flags s).dumpS = s.dumpS := rfl
@[simp] theorem clearD0Flags_ctl (s : State) : (clearD0Flags s).ctl = s.ctl := rfl
@[simp] theorem clearD0Flags_work (s : State) : (clearD0Flags s).work = s.work := rfl
@[simp] theorem clearD0Flags_params (s : State) : (clearD0Flags s).params = s.params := rfl
@[simp] theorem clearD0Flags_env (s : State) : (clearD0Flags s).env = s.env := rfl
@[simp] theorem clearD0Flags_draws (s : State) : (clearD0Flags s).draws = s.draws := rfl
@[simp] theorem clearD0Flags_out (s : State) : (clearD0Flags s).out = s.out := rfl

/-! ## openCommon -/

@[simp] theorem openCommon_status (g : TransportConfig) (t : Bool) (p : Path) (s : State) :
    (openCommon g t p s).status = { Status.reset with isOpen := true, path := p, term := t } := rfl
@[simp] theorem openCommon_config (g : TransportConfig) (t : Bool) (p : Path) (s : State) :
    (openCommon g t p s).config = g := rfl
@[simp] theorem openCommon_capacity (g : TransportConfig) (t : Bool) (p : Path) (s : State) :
    (openCommon g t p s).capacity = s.capacity := rfl
@[simp] theorem openCommon_vtime (g : TransportConfig) (t : Bool) (p : Path) (s : State) :
    (openCommon g t p s).vtime = s.vtime := rfl
@[simp] theorem openCommon_maxfail (g : TransportConfig) (t : Bool) (p : Path) (s : State) :
    (openCommon g t p s).maxfail = s.maxfail := rfl
@[simp] theorem openCommon_dumpEn (g : TransportConfig) (t : Bool) (p : Path) (s : State) :
    (openCommon g t p s).dumpEn = s.dumpEn := rfl
@[simp] theorem openCommon_lastLen (g : TransportConfig) (t : Bool) (p : Path) (s : State) :
    (openCommon g t p s).lastLen = 0 := rfl
@[simp] theorem openCommon_crcComputed (g : TransportConfig) (t : Bool) (p : Path) (s : State) :
    (openCommon g t p s).crcComputed = 0 := rfl
@[simp] theorem openCommon_crcEmbedded (g : TransportConfig) (t : Bool) (p : Path) (s : State) :
    (openCommon g t p s).crcEmbedded = 0 := rfl
@[simp] theorem openCommon_failcnt (g : TransportConfig) (t : Bool) (p : Path) (s : State) :
    (openCommon g t p s).failcnt = 0 := rfl
@[simp] theorem openCommon_idLen (g : TransportConfig) (t : Bool) (p : Path) (s : State) :
    (openCommon g t p s).idLen = 0 := rfl
@[simp] theorem openCommon_parseErrors (g : TransportConfig) (t : Bool) (p : Path) (s : State) :
    (openCommon g t p s).parseErrors = 0 := rfl
@[simp] theorem openCommon_result (g : TransportConfig) (t : Bool) (p : Path) (s : State) :
    (openCommon g t p s).result = s.result := rfl
@[simp] theorem openCommon_bufcap (g : TransportConfig) (t : Bool) (p : Path) (s : State) :
    (openCommon g t p s).bufcap = s.capacity := rfl
@[simp] theorem openCommon_buf (g : TransportConfig) (t : Bool) (p : Path) (s : State) :
    (openCommon g t p s).buf = [] := rfl
@[simp] theorem openCommon_dumpS (g : TransportConfig) (t : Bool) (p : Path) (s : State) :
    (openCommon g t p s).dumpS = s.dumpEn := rfl
@[simp] theorem openCommon_ctl (g : TransportConfig) (t : Bool) (p : Path) (s : State) :
    (openCommon g t p s).ctl = s.ctl := rfl
@[simp] theorem openCommon_work (g : TransportConfig) (t : Bool) (p : Path) (s : State) :
    (openCommon g t p s).work = s.work := rfl
@[simp] theorem openCommon_params (g : TransportConfig) (t : Bool) (p : Path) (s : State) :
    (openCommon g t p s).params = s.params := rfl
@[simp] theorem openCommon_env (g : TransportConfig) (t : Bool) (p : Path) (s : State) :
    (openCommon g t p s).env = s.env := rfl
@[simp] theorem openCommon_draws (g : TransportConfig) (t : Bool) (p : Path) (s : State) :
    (openCommon g t p s).draws = s.draws := rfl
@[simp] theorem openCommon_out (g : TransportConfig) (t : Bool) (p : Path) (s : State) :
    (openCommon g t p s).out = s.out := rfl

/-! ## closeSession -/

@[simp] theorem closeSession_status (s : State) :
    (closeSession s).status = { s.status with isOpen := false, path := .p1, term := false, mode := .probe } := rfl
@[simp] theorem closeSession_config (s : State) : (closeSession s).config = TransportConfig.reset := rfl
@[simp] theorem closeSession_capacity (s : State) : (closeSession s).capacity = s.capacity := rfl
@[simp] theorem closeSession_vtime (s : State) : (closeSession s).vtime = s.vtime := rfl
@[simp] theorem closeSession_maxfail (s : State) : (closeSession s).maxfail = s.maxfail := rfl
@[simp] theorem closeSession_dumpEn (s : State) : (closeSession s).dumpEn = s.dumpEn := rfl
@[simp] theorem closeSession_lastLen (s : State) : (closeSession s).lastLen = s.lastLen := rfl
@[simp] theorem closeSession_crcComputed (s : State) : (closeSession s).crcComputed = s.crcComputed := rfl
@[simp] theorem closeSession_crcEmbedded (s : State) : (closeSession s).crcEmbedded = s.crcEmbedded := rfl
@[simp] theorem closeSession_failcnt (s : State) : (closeSession s).failcnt = s.failcnt := rfl
@[simp] theorem closeSession_idLen (s : State) : (closeSession s).idLen = s.idLen := rfl
@[simp] theorem closeSession_parseErrors (s : State) : (closeSession s).parseErrors = s.parseErrors := rfl
@[simp] theorem closeSession_result (s : State) : (closeSession s).result = s.result := rfl
@[simp] theorem closeSession_bufcap (s : State) : (closeSession s).bufcap = 0 := rfl
@[simp] theorem closeSession_buf (s : State) : (closeSession s).buf = [] := rfl
@[simp] theorem closeSession_dumpS (s : State) : (closeSession s).dumpS = false := rfl
@[simp] theorem closeSession_ctl (s : State) : (closeSession s).ctl = s.ctl := rfl
@[simp] theorem closeSession_work (s : State) : (closeSession s).work = s.work := rfl
@[simp] theorem closeSession_params (s : State) : (closeSession s).params = s.params := rfl
@[simp] theorem closeSession_env (s : State) : (closeSession s).env = s.env := rfl
@[simp] theorem closeSession_draws (s : State) : (closeSession s).draws = s.draws := rfl
@[simp] theorem closeSession_out (s : State) : (closeSession s).out = s.out := rfl

end Sys2Proof.Machine
end

