-- ==== Sys2Proof/Laws/Ops.lean ====
section
/-! SUPPORT. One lemma per shared operation: everything it can do. -/

namespace Sys2Proof.Machine

/-! ## Outcomes -/

@[simp] theorem andThen_next (s : State) (k : State → Result) : andThen (.next s) k = k s := rfl
@[simp] theorem andThen_fault (f : Fault) (k : State → Result) : andThen (.fault f) k = .fault f := rfl
@[simp] theorem andThen_refused (f : Refusal) (k : State → Result) : andThen (.refused f) k = .refused f := rfl

/-- A chain answers a next state exactly when its parts do. -/
theorem andThen_eq_next {r : Result} {k : State → Result} {t : State} :
    andThen r k = .next t ↔ ∃ s, r = .next s ∧ k s = .next t := by
  cases r <;> simp [andThen]

theorem andThen_assoc (r : Result) (k l : State → Result) :
    andThen (andThen r k) l = andThen r fun s => andThen (k s) l := by
  cases r <;> rfl

/-! ## The buffer -/

/-- `BufRead` in range of a written cell: the byte, and nothing changes. -/
theorem bufRead_written {i : Nat} {s : State} {b : Byte} (h : i < s.bufcap.toNat) (hb : s.buf.read i = some b) :
    bufRead i s = (some b, s) := by
  simp [bufRead, h, hb]

/-- `BufRead` in range of an UNWRITTEN cell: the next free byte. -/
theorem bufRead_unwritten {i : Nat} {s : State} (h : i < s.bufcap.toNat) (hb : s.buf.read i = none) :
    bufRead i s = (some (Config.unwrittenByte s.draws), { s with draws := s.draws + 1 }) := by
  simp [bufRead, h, hb]

/-- `BufRead` out of range: OUT_OF_RANGE. -/
theorem bufRead_outOfRange {i : Nat} {s : State} (h : ¬ i < s.bufcap.toNat) : bufRead i s = (none, s) := by
  simp [bufRead, h]

/-- All that `BufRead` changes is the count of draws. -/
theorem bufRead_state (i : Nat) (s : State) :
    (bufRead i s).2 = { s with draws := (bufRead i s).2.draws } ∧ s.draws ≤ (bufRead i s).2.draws := by
  unfold bufRead
  split
  · split <;> simp
  · simp

/-- All that reading a slice changes is the count of draws. -/
theorem bufSlice_state (n i : Nat) (s : State) :
    (bufSlice i n s).2 = { s with draws := (bufSlice i n s).2.draws } ∧ s.draws ≤ (bufSlice i n s).2.draws := by
  induction n generalizing i s with
  | zero => simp [bufSlice]
  | succ n ih =>
    have h1 := bufRead_state i s
    have h2 := ih (i + 1) (bufRead i s).2
    simp only [bufSlice]
    refine ⟨?_, h1.2.trans h2.2⟩
    rw [h2.1, h1.1]

/-- A slice of written cells in range is their bytes, and nothing changes. -/
theorem bufSlice_written (l : List Byte) (i : Nat) (s : State) (hcap : i + l.length ≤ s.bufcap.toNat)
    (h : ∀ j (hj : j < l.length), s.buf.read (i + j) = some l[j]) : bufSlice i l.length s = (l, s) := by
  induction l generalizing i with
  | nil => rfl
  | cons b l ih =>
    simp only [List.length_cons] at hcap
    have h0 : s.buf.read i = some b := h 0 (by simp)
    have hr : bufRead i s = (some b, s) := bufRead_written (by omega) h0
    have ht := ih (i + 1) (by omega) fun j hj => by
      have := h (j + 1) (by simpa using hj)
      simpa [Nat.add_comm, Nat.add_left_comm] using this
    simp [bufSlice, hr, ht]

/-- `BufWrite`: in range it stores one byte and changes nothing else, out of range it refuses. -/
theorem bufWrite_eq_next {i : Nat} {b : Byte} {s t : State} :
    bufWrite i b s = .next t ↔ i < s.bufcap.toNat ∧ t = { s with buf := s.buf.write i b } := by
  unfold bufWrite
  split <;> simp_all [eq_comm]

theorem bufWrite_inRange {i : Nat} {b : Byte} {s : State} (h : i < s.bufcap.toNat) :
    bufWrite i b s = .next { s with buf := s.buf.write i b } := bufWrite_eq_next.2 ⟨h, rfl⟩

/-- The buffer after the bytes `l` have been written at rising offsets from `i`. -/
def Memory.writeAll (m : Memory) (i : Nat) (l : List Byte) : Memory :=
  match l with
  | [] => m
  | b :: l => Memory.writeAll (m.write i b) (i + 1) l

@[simp] theorem Memory.writeAll_nil (m : Memory) (i : Nat) : m.writeAll i [] = m := rfl
@[simp] theorem Memory.writeAll_cons (m : Memory) (i : Nat) (b : Byte) (l : List Byte) :
    m.writeAll i (b :: l) = (m.write i b).writeAll (i + 1) l := rfl

theorem Memory.writeAll_append (m : Memory) (i : Nat) (l k : List Byte) :
    m.writeAll i (l ++ k) = (m.writeAll i l).writeAll (i + l.length) k := by
  induction l generalizing m i with
  | nil => simp
  | cons b l ih => simp [ih, Nat.add_assoc, Nat.add_comm 1]

/-- What a read gives after a run of writes. -/
theorem Memory.read_writeAll (m : Memory) (i : Nat) (l : List Byte) (j : Nat) :
    (m.writeAll i l).read j = if h : i ≤ j ∧ j < i + l.length then some (l[j - i]'(by omega)) else m.read j := by
  induction l generalizing m i with
  | nil => simp
  | cons b l ih =>
    rw [writeAll_cons, ih]
    by_cases h1 : i + 1 ≤ j ∧ j < i + 1 + l.length
    · have h2 : i ≤ j ∧ j < i + (b :: l).length := by simp; omega
      rw [dif_pos h1, dif_pos h2]
      have : j - i = (j - (i + 1)) + 1 := by omega
      simp [this]
    · rw [dif_neg h1]
      by_cases h3 : j = i
      · subst h3; simp
      · have h4 : ¬ (i ≤ j ∧ j < i + (b :: l).length) := by simp; omega
        rw [dif_neg h4, Memory.read_write_ne _ _ h3]

/-- A run of writes keeps the canonical form. -/
theorem Memory.writeAll_wf {m : Memory} (h : m.wf) (i : Nat) (l : List Byte) : (m.writeAll i l).wf := by
  induction l generalizing m i with
  | nil => exact h
  | cons b l ih => exact ih (Memory.write_wf h i b) (i + 1)

/-- A run of `BufWrite`s: all in range and stored, or the step is refused. -/
theorem bufWriteAll_eq_next {l : List Byte} {i : Nat} {s t : State} :
    bufWriteAll i l s = .next t ↔
      (l = [] ∨ i + l.length ≤ s.bufcap.toNat) ∧ t = { s with buf := s.buf.writeAll i l } := by
  induction l generalizing i s with
  | nil => simp [bufWriteAll, eq_comm]
  | cons b l ih =>
    simp only [bufWriteAll, andThen_eq_next, bufWrite_eq_next, ih]
    constructor
    · rintro ⟨s1, ⟨h1, rfl⟩, h2, rfl⟩
      refine ⟨.inr ?_, rfl⟩
      rcases h2 with rfl | h2
      · simpa using h1
      · simp only [List.length_cons]; simp only at h2; omega
    · rintro ⟨h, rfl⟩
      have h : i + (l.length + 1) ≤ s.bufcap.toNat := by simpa using h
      exact ⟨_, ⟨by omega, rfl⟩, .inr (by simp only; omega), rfl⟩

/-- A length below another 16-bit length does not wrap when it counts one more. -/
theorem toNat_succ_of_lt {a b : BitVec 16} (h : a < b) : (a + 1).toNat = a.toNat + 1 := by
  have h : a.toNat < b.toNat := h
  have hb := b.isLt
  have one : (1 : BitVec 16).toNat = 1 := rfl
  rw [BitVec.toNat_add, one]
  omega

/-! ## Ending and failing -/

@[simp] theorem fail_eq (e : ErrCode) (s : State) : fail e s = .next (respond e.word s) := rfl

@[simp] theorem succeed_eq (v : Nat) (s : State) : succeed v s = .next (respond (BitVec.ofNat 32 v) s) := rfl

/-- Failing changes RESULT, CTL and the response port (R162), and nothing else. -/
theorem fail_frame (e : ErrCode) (s : State) :
    fail e s = .next { s with result := e.word, ctl := .idle, out := s.out ++ [.response e.word] } := rfl

/-- The codes of R155 are distinct and negative. -/
theorem errCode_word_injective {a b : ErrCode} (h : a.word = b.word) : a = b := by
  cases a <;> cases b <;> first | rfl | (exfalso; revert h; decide)

/-! ## Guards -/

theorem whenIdle_idle {s : State} (h : s.ctl = .idle) (k : State → Result) : whenIdle s k = k s := by
  simp [whenIdle, h]

theorem whenIdle_busy {s : State} (h : s.ctl ≠ .idle) (k : State → Result) :
    whenIdle s k = .fault .commandInProgress := by
  simp [whenIdle, h]

theorem whenOpen_open {s : State} (h : s.status.isOpen = true) (k : State → Result) : whenOpen s k = k s := by
  simp [whenOpen, h]

theorem whenOpen_closed {s : State} (h : s.status.isOpen = false) (k : State → Result) :
    whenOpen s k = .next (respond ErrCode.session.word s) := by
  simp [whenOpen, h]

/-! ## Exchanges -/

theorem onRx_eq_some {k : RxAnswer → State → Result} {s : State} {r : Result} :
    onRx k s = some r ↔
      ∃ a as, s.env.rx = a :: as ∧ r = k a { s with env := { s.env with rx := as } } := by
  unfold onRx; split <;> simp_all [eq_comm]

theorem onTx_eq_some {str : List Byte} {k : TxAnswer → State → Result} {s : State} {r : Result} :
    onTx str k s = some r ↔
      ∃ a as, s.env.tx = a :: as ∧ a.fits str.length = true ∧ r = k a { s with env := { s.env with tx := as } } := by
  unfold onTx
  split
  · simp_all
  · next a as he =>
    constructor
    · intro h
      split at h
      · next hf => exact ⟨a, as, he, hf, (Option.some.inj h).symm⟩
      · cases h
    · rintro ⟨b, bs, hb, hf, rfl⟩
      rw [he] at hb
      cases hb
      rw [if_pos hf]

theorem onTx_answered {str : List Byte} {k : TxAnswer → State → Result} {s : State} {a : TxAnswer} {as : List TxAnswer}
    (h : s.env.tx = a :: as) (hf : a.fits str.length = true) :
    onTx str k s = some (k a { s with env := { s.env with tx := as } }) :=
  onTx_eq_some.2 ⟨a, as, h, hf, rfl⟩

@[simp] theorem fits_error (n : Nat) : TxAnswer.error.fits n = true := rfl
@[simp] theorem fits_written (n m : Nat) : (TxAnswer.written m).fits n = decide (m ≤ n) := rfl
@[simp] theorem signonBytes_length : signonBytes.length = 5 := rfl
@[simp] theorem ackBytes_length (c4 : Byte) : (ackBytes c4).length = 6 := rfl
@[simp] theorem signoffBytes_length : signoffBytes.length = 6 := rfl

theorem onApply_eq_some {k : ApplyAnswer → State → Result} {s : State} {r : Result} :
    onApply k s = some r ↔
      ∃ a as, s.env.apply = a :: as ∧ r = k a { s with env := { s.env with apply := as } } := by
  unfold onApply; split <;> simp_all [eq_comm]

theorem onAcquire_eq_some {k : AcquireAnswer → State → Result} {s : State} {r : Result} :
    onAcquire k s = some r ↔
      ∃ a as, s.env.acquire = a :: as ∧ r = k a { s with env := { s.env with acquire := as } } := by
  unfold onAcquire; split <;> simp_all [eq_comm]

theorem onParse_eq_some {k : ParseAnswer → State → Result} {s : State} {r : Result} :
    onParse k s = some r ↔
      ∃ a as, s.env.parse = a :: as ∧ r = k a { s with env := { s.env with parse := as } } := by
  unfold onParse; split <;> simp_all [eq_comm]

theorem onDone_eq_some {k : State → Result} {s : State} {r : Result} :
    onDone k s = some r ↔
      ∃ n, s.env.done = n + 1 ∧ r = k { s with env := { s.env with done := n } } := by
  unfold onDone; split <;> simp_all [eq_comm]

end Sys2Proof.Machine
end

