-- ==== Sys2Proof/Laws/Moves.lean ====
section
/-! SUPPORT. What one move does, said once: the frame every handler keeps, the output it adds, the answer it consumes;
and how `advance` unfolds into moves. -/

namespace Sys2Proof.Machine

/-! ## The turn of a handler -/

/-- What every handler does, from the state with the answer consumed (`s`) to the state it leaves (`t`): the
host-writable registers, the parameters and the environment stay, and exactly one thing goes out, the next request or
the response. -/
structure Turn (s t : State) : Prop where
  capacity : t.capacity = s.capacity
  vtime : t.vtime = s.vtime
  maxfail : t.maxfail = s.maxfail
  dumpEn : t.dumpEn = s.dumpEn
  params : t.params = s.params
  env : t.env = s.env
  out : (∃ r, t.out = s.out ++ [.request r] ∧ t.ctl ≠ .idle ∧ outstanding t = some r) ∨
    (t.out = s.out ++ [.response t.result] ∧ t.ctl = .idle)

/-- A handler all of whose next states are turns. -/
def Turns (k : State → Result) : Prop := ∀ s t, k s = .next t → Turn s t

/-- Writes inside a handler before its turn: they touch none of what `Turn` speaks of. -/
structure Quiet (s t : State) : Prop where
  capacity : t.capacity = s.capacity
  vtime : t.vtime = s.vtime
  maxfail : t.maxfail = s.maxfail
  dumpEn : t.dumpEn = s.dumpEn
  params : t.params = s.params
  env : t.env = s.env
  out : t.out = s.out

theorem Turn.after {s s1 t : State} (h : Turn s1 t) (q : Quiet s s1) : Turn s t where
  capacity := h.capacity.trans q.capacity
  vtime := h.vtime.trans q.vtime
  maxfail := h.maxfail.trans q.maxfail
  dumpEn := h.dumpEn.trans q.dumpEn
  params := h.params.trans q.params
  env := h.env.trans q.env
  out := by rw [← q.out]; exact h.out

theorem Turn.ofIssue {s : State} {r : Request} {c : Ctl} (hc : c ≠ .idle)
    (h : outstanding (issue r c s) = some r) : Turn s (issue r c s) :=
  ⟨rfl, rfl, rfl, rfl, rfl, rfl, .inl ⟨r, rfl, hc, h⟩⟩

theorem Turn.ofRespond (v : Word) (s : State) : Turn s (respond v s) :=
  ⟨rfl, rfl, rfl, rfl, rfl, rfl, .inr ⟨rfl, rfl⟩⟩

theorem fail_turns (e : ErrCode) : Turns (fail e) := by
  rintro s t h
  simp only [fail_eq, Host.Outcome.next.injEq] at h
  exact h ▸ Turn.ofRespond _ _

theorem succeed_turns (v : Nat) : Turns (succeed v) := by
  rintro s t h
  simp only [succeed_eq, Host.Outcome.next.injEq] at h
  exact h ▸ Turn.ofRespond _ _

theorem Quiet.ofBufRead (i : Nat) (s : State) : Quiet s (bufRead i s).2 := by
  rw [(bufRead_state i s).1]; exact ⟨rfl, rfl, rfl, rfl, rfl, rfl, rfl⟩

theorem Quiet.ofBufSlice (i n : Nat) (s : State) : Quiet s (bufSlice i n s).2 := by
  rw [(bufSlice_state n i s).1]; exact ⟨rfl, rfl, rfl, rfl, rfl, rfl, rfl⟩

theorem Quiet.trans {s t u : State} (h : Quiet s t) (k : Quiet t u) : Quiet s u :=
  ⟨k.capacity.trans h.capacity, k.vtime.trans h.vtime, k.maxfail.trans h.maxfail, k.dumpEn.trans h.dumpEn,
    k.params.trans h.params, k.env.trans h.env, k.out.trans h.out⟩

theorem Quiet.ofBangAt (k n : Nat) (s : State) : Quiet s (bangAt k n s).2 := by
  unfold bangAt
  split
  · exact Quiet.ofBufRead _ _
  · exact ⟨rfl, rfl, rfl, rfl, rfl, rfl, rfl⟩

/-- The CRC_COMPUTE body writes STYLE, CRC_COMPUTED and the count of draws only (40_crc.md R92). -/
theorem crcBody_state (n : Nat) (s : State) :
    ∃ st d, s.draws ≤ d ∧ (crcBody n s).2 = { setCrc st (crcBody n s).1 s with draws := d } := by
  have hb : ∀ k (u : State), (bangAt k n u).2 = { u with draws := (bangAt k n u).2.draws } ∧
      u.draws ≤ (bangAt k n u).2.draws := by
    intro k u
    unfold bangAt
    split
    · exact bufRead_state _ _
    · exact ⟨rfl, le_refl _⟩
  have h3 := hb 3 s
  have h7 := hb 7 (bangAt 3 n s).2
  unfold crcBody
  split
  · exact ⟨.unclassed, s.draws, le_refl _, rfl⟩
  dsimp only
  split
  · refine ⟨.legacy, _, h3.2, ?_⟩
    simp only [setCrc]; rw [h3.1]
  · split
    · have hs := bufSlice_state (n - 6) 0 (bangAt 7 n (bangAt 3 n s).2).2
      refine ⟨.crc, _, h3.2.trans (h7.2.trans hs.2), ?_⟩
      simp only [crcBearing, setCrc]; rw [hs.1, h7.1, h3.1]
    · refine ⟨.unclassed, _, h3.2.trans h7.2, ?_⟩
      simp only [setCrc]; rw [h7.1, h3.1]

theorem Quiet.ofCrcBody (n : Nat) (s : State) : Quiet s (crcBody n s).2 := by
  obtain ⟨st, d, _, h⟩ := crcBody_state n s
  rw [h]; exact ⟨rfl, rfl, rfl, rfl, rfl, rfl, rfl⟩

/-! ### READ -/

theorem readDone_turns : Turns readDone := fun _ _ h => succeed_turns _ _ _ h

theorem dumpStep_turns (e : Nat) : Turns (dumpStep e) := by
  intro s t h
  unfold dumpStep at h
  split at h
  · cases h; exact Turn.ofIssue (by simp) rfl
  · exact readDone_turns s t h

theorem onDumped_turns : Turns onDumped := fun _ _ h =>
  (readDone_turns _ _ h).after ⟨rfl, rfl, rfl, rfl, rfl, rfl, rfl⟩

theorem onParsed_turns (o : ParseAnswer) : Turns (onParsed o) := by
  intro s t h
  have q : Quiet s (recordParse o s) := ⟨rfl, rfl, rfl, rfl, rfl, rfl, rfl⟩
  unfold onParsed at h
  dsimp only at h
  split at h
  · refine (dumpStep_turns _ _ _ h).after (q.trans ?_)
    unfold crcCheck
    exact (Quiet.ofCrcBody _ _).trans ⟨rfl, rfl, rfl, rfl, rfl, rfl, rfl⟩
  · exact (dumpStep_turns _ _ _ h).after q

theorem parseStep_turns (i n : Nat) : Turns (parseStep i n) := by
  intro s t h
  unfold parseStep at h
  cases h
  refine Turn.after (Turn.ofIssue (by simp) rfl) ?_
  exact (Quiet.ofBufSlice i n s).trans ⟨rfl, rfl, rfl, rfl, rfl, rfl, rfl⟩

theorem toggleStep_turns : Turns toggleStep := by
  intro s t h
  unfold toggleStep at h
  split at h
  · cases h; exact Turn.ofIssue (by simp) rfl
  · exact (succeed_turns _ _ _ h).after ⟨rfl, rfl, rfl, rfl, rfl, rfl, rfl⟩

theorem onToggled_turns (a : ApplyAnswer) : Turns (onToggled a) := by
  intro s t h
  cases a
  · exact (succeed_turns _ _ _ h).after ⟨rfl, rfl, rfl, rfl, rfl, rfl, rfl⟩
  · exact fail_turns _ _ _ h

theorem frameFound_turns (v : BitVec 16) : Turns (frameFound v) := by
  intro s t h
  unfold frameFound at h
  dsimp only at h
  split at h
  · exact (parseStep_turns _ _ _ _ h).after ⟨rfl, rfl, rfl, rfl, rfl, rfl, rfl⟩
  · exact (succeed_turns _ _ _ h).after ⟨rfl, rfl, rfl, rfl, rfl, rfl, rfl⟩

theorem frameNone_turns : Turns frameNone := by
  intro s t h
  unfold frameNone at h
  dsimp only at h
  split at h
  · exact (toggleStep_turns _ _ h).after ⟨rfl, rfl, rfl, rfl, rfl, rfl, rfl⟩
  · exact (succeed_turns _ _ _ h).after ⟨rfl, rfl, rfl, rfl, rfl, rfl, rfl⟩

theorem d0Found_turns (v : BitVec 16) : Turns (d0Found v) := by
  intro s t h
  unfold d0Found at h
  dsimp only at h
  split at h
  · exact (parseStep_turns _ _ _ _ h).after ⟨rfl, rfl, rfl, rfl, rfl, rfl, rfl⟩
  · exact (succeed_turns _ _ _ h).after ⟨rfl, rfl, rfl, rfl, rfl, rfl, rfl⟩

/-! ### The framer -/

theorem gotoSearch_turn (s : State) : Turn s (gotoSearch s) := Turn.ofIssue (by simp) rfl
theorem gotoAccum_turn (s : State) : Turn s (gotoAccum s) := Turn.ofIssue (by simp) rfl
theorem gotoTail4_turn (s : State) : Turn s (gotoTail4 s) := Turn.ofIssue (by simp) rfl
theorem gotoTail2_turn (s : State) : Turn s (gotoTail2 s) :=
  Turn.after (Turn.ofIssue (by simp) rfl) ⟨rfl, rfl, rfl, rfl, rfl, rfl, rfl⟩

theorem chargeThenSearch_turns (k : Nat) : Turns (chargeThenSearch k) := by
  intro s t h
  have q : Quiet s (addFailures k s) := ⟨rfl, rfl, rfl, rfl, rfl, rfl, rfl⟩
  unfold chargeThenSearch at h
  dsimp only at h
  split at h
  · exact (frameNone_turns _ _ h).after q
  · cases h; exact (gotoSearch_turn _).after q

theorem onSearch_turns (a : RxAnswer) : Turns (onSearch a) := by
  intro s t h
  cases a with
  | byte b =>
    simp only [onSearch] at h
    split at h
    · obtain ⟨s1, h1, h2⟩ := andThen_eq_next.1 h
      obtain ⟨-, rfl⟩ := bufWrite_eq_next.1 h1
      cases h2
      exact (gotoAccum_turn _).after ⟨rfl, rfl, rfl, rfl, rfl, rfl, rfl⟩
    · split at h
      · exact chargeThenSearch_turns _ _ _ h
      · cases h; exact gotoSearch_turn _
  | empty => exact frameNone_turns _ _ h
  | error => exact frameNone_turns _ _ h

theorem afterStore_turns (b : Byte) : Turns (afterStore b) := by
  intro s t h
  unfold afterStore at h
  split at h
  · cases h; exact gotoTail2_turn _
  · split at h
    · exact (chargeThenSearch_turns _ _ _ h).after ⟨rfl, rfl, rfl, rfl, rfl, rfl, rfl⟩
    · cases h; exact gotoAccum_turn _

theorem onAccum_turns (a : RxAnswer) : Turns (onAccum a) := by
  intro s t h
  cases a with
  | byte b =>
    obtain ⟨s1, h1, h2⟩ := andThen_eq_next.1 h
    obtain ⟨-, rfl⟩ := bufWrite_eq_next.1 h1
    exact (afterStore_turns _ _ _ h2).after ⟨rfl, rfl, rfl, rfl, rfl, rfl, rfl⟩
  | empty => exact frameNone_turns _ _ h
  | error => exact frameNone_turns _ _ h

theorem invalidCandidate_turns : Turns invalidCandidate := fun _ _ h =>
  (chargeThenSearch_turns _ _ _ h).after ⟨rfl, rfl, rfl, rfl, rfl, rfl, rfl⟩

theorem acceptTail_turns (l : List Byte) : Turns (acceptTail l) := by
  intro s t h
  obtain ⟨s1, h1, h2⟩ := andThen_eq_next.1 h
  obtain ⟨-, rfl⟩ := bufWriteAll_eq_next.1 h1
  exact (frameFound_turns _ _ _ h2).after ⟨rfl, rfl, rfl, rfl, rfl, rfl, rfl⟩

theorem legacyCheck_turns : Turns legacyCheck := by
  intro s t h
  unfold legacyCheck at h
  split at h
  · split at h
    · exact acceptTail_turns _ _ _ h
    · exact invalidCandidate_turns _ _ h
  · exact invalidCandidate_turns _ _ h

theorem tail2Done_turns : Turns tail2Done := by
  intro s t h
  unfold tail2Done at h
  split at h
  · exact legacyCheck_turns _ _ h
  · cases h; exact gotoTail4_turn _

theorem onTail2_turns (a : RxAnswer) : Turns (onTail2 a) := by
  intro s t h
  unfold onTail2 at h
  dsimp only at h
  split at h
  · cases h; exact (Turn.ofIssue (by simp) rfl).after ⟨rfl, rfl, rfl, rfl, rfl, rfl, rfl⟩
  · exact (tail2Done_turns _ _ h).after ⟨rfl, rfl, rfl, rfl, rfl, rfl, rfl⟩

theorem tail4Done_turns : Turns tail4Done := by
  intro s t h
  unfold tail4Done at h
  split at h
  · split at h
    · exact acceptTail_turns _ _ _ h
    · exact invalidCandidate_turns _ _ h
  · exact invalidCandidate_turns _ _ h

theorem onTail4_turns (a : RxAnswer) : Turns (onTail4 a) := by
  intro s t h
  unfold onTail4 at h
  dsimp only at h
  split at h
  · cases h; exact (Turn.ofIssue (by simp) rfl).after ⟨rfl, rfl, rfl, rfl, rfl, rfl, rfl⟩
  · exact (tail4Done_turns _ _ h).after ⟨rfl, rfl, rfl, rfl, rfl, rfl, rfl⟩

/-! ### The D0 engine -/

theorem gotoWake_turn (s : State) : Turn s (gotoWake s) :=
  Turn.after (Turn.ofIssue (by simp) rfl) ⟨rfl, rfl, rfl, rfl, rfl, rfl, rfl⟩

theorem d0Entry_turn (s : State) : Turn s (d0Entry s) := by
  have q : Quiet s (clearD0Flags s) := ⟨rfl, rfl, rfl, rfl, rfl, rfl, rfl⟩
  unfold d0Entry
  dsimp only
  split
  · split
    · exact Turn.after (Turn.ofIssue (by simp) rfl) q
    · exact Turn.after (gotoWake_turn _) ⟨rfl, rfl, rfl, rfl, rfl, rfl, rfl⟩
  · exact Turn.after (gotoWake_turn _) q

theorem frameEntry_turn (s : State) : Turn s (frameEntry s) :=
  Turn.after (gotoSearch_turn _) ⟨rfl, rfl, rfl, rfl, rfl, rfl, rfl⟩

theorem readEntry_turn (s : State) : Turn s (readEntry s) := by
  unfold readEntry
  dsimp only
  split
  · exact Turn.after (frameEntry_turn _) ⟨rfl, rfl, rfl, rfl, rfl, rfl, rfl⟩
  · exact Turn.after (d0Entry_turn _) ⟨rfl, rfl, rfl, rfl, rfl, rfl, rfl⟩

theorem onRebased_turns (a : ApplyAnswer) : Turns (onRebased a) := by
  intro s t h
  cases a
  · cases h; exact Turn.after (gotoWake_turn _) ⟨rfl, rfl, rfl, rfl, rfl, rfl, rfl⟩
  · exact fail_turns _ _ _ h

theorem onWake_turns (a : TxAnswer) : Turns (onWake a) := by
  intro s t h
  have q : Quiet s { s with work := { s.work with nulls := s.work.nulls + 1 } } :=
    ⟨rfl, rfl, rfl, rfl, rfl, rfl, rfl⟩
  unfold onWake at h
  split at h
  · dsimp only at h
    split at h
    · cases h; exact Turn.after (Turn.ofIssue (by simp) rfl) q
    · cases h; exact Turn.after (Turn.ofIssue (by simp) rfl) q
  · exact fail_turns _ _ _ h

theorem onWakeDrained_turns : Turns onWakeDrained := by
  intro s t h; cases h; exact Turn.ofIssue (by simp) rfl

theorem onSettled_turns : Turns onSettled := by
  intro s t h; cases h; exact Turn.ofIssue (by simp) rfl

theorem drainThen_turns {c : Ctl} (hc : c = .d0SignonDrain ∨ c = .d0AckDrain ∨ c = .d0SignoffDrain) (a : TxAnswer) :
    Turns (drainThen c a) := by
  intro s t h
  cases h
  rcases hc with rfl | rfl | rfl <;> exact (Turn.ofIssue (by simp) rfl).after ⟨rfl, rfl, rfl, rfl, rfl, rfl, rfl⟩

theorem onSignonDrained_turns : Turns onSignonDrained := by
  intro s t h
  unfold onSignonDrained at h
  split at h
  · cases h; exact Turn.ofIssue (by simp) rfl
  · exact fail_turns _ _ _ h

theorem d0Complete_turns : Turns d0Complete := fun _ _ h => d0Found_turns _ _ _ h

theorem gotoSignoff_turns : Turns gotoSignoff := by
  intro s t h
  unfold gotoSignoff at h
  split at h
  · cases h; exact Turn.ofIssue (by simp) rfl
  · exact d0Complete_turns _ _ h

theorem onSignoffDrained_turns : Turns onSignoffDrained := by
  intro s t h
  unfold onSignoffDrained at h
  split at h
  · exact (d0Complete_turns _ _ h).after ⟨rfl, rfl, rfl, rfl, rfl, rfl, rfl⟩
  · exact fail_turns _ _ _ h

theorem captureNext_turns : Turns captureNext := by
  intro s t h
  unfold captureNext at h
  split at h
  · exact fail_turns _ _ _ h
  · cases h; exact Turn.ofIssue (by simp) rfl

/-- `storeByte`: in range it stores the byte and counts it, out of range it refuses. -/
theorem storeByte_eq_next {b : Byte} {s t : State} :
    storeByte b s = .next t ↔ s.work.len < s.bufcap ∧
      t = { s with buf := s.buf.write s.work.len.toNat b, work := { s.work with len := s.work.len + 1 } } := by
  unfold storeByte
  rw [andThen_eq_next]
  constructor
  · rintro ⟨s1, h1, h2⟩
    obtain ⟨hlt, rfl⟩ := bufWrite_eq_next.1 h1
    cases h2
    exact ⟨hlt, rfl⟩
  · rintro ⟨hlt, rfl⟩
    exact ⟨_, bufWrite_inRange hlt, rfl⟩

theorem onCapture_turns (a : RxAnswer) : Turns (onCapture a) := by
  intro s t h
  cases a with
  | byte b =>
    simp only [onCapture] at h
    split at h
    · obtain ⟨s1, h1, h2⟩ := andThen_eq_next.1 h
      obtain ⟨-, rfl⟩ := storeByte_eq_next.1 h1
      exact (gotoSignoff_turns _ _ h2).after ⟨rfl, rfl, rfl, rfl, rfl, rfl, rfl⟩
    · split at h
      · exact fail_turns _ _ _ h
      · obtain ⟨s1, h1, h2⟩ := andThen_eq_next.1 h
        obtain ⟨-, rfl⟩ := storeByte_eq_next.1 h1
        exact (captureNext_turns _ _ h2).after ⟨rfl, rfl, rfl, rfl, rfl, rfl, rfl⟩
  | empty => exact fail_turns _ _ _ h
  | error => exact fail_turns _ _ _ h

theorem gotoCapture_turns : Turns gotoCapture := fun _ _ h =>
  (captureNext_turns _ _ h).after ⟨rfl, rfl, rfl, rfl, rfl, rfl, rfl⟩

theorem gotoBaud_turns : Turns gotoBaud := by
  intro s t h
  unfold gotoBaud at h
  split at h
  · split at h
    · cases h; exact Turn.ofIssue (by simp) rfl
    · exact (gotoCapture_turns _ _ h).after ⟨rfl, rfl, rfl, rfl, rfl, rfl, rfl⟩
  · exact gotoCapture_turns _ _ h

theorem onSwitched_turns (a : ApplyAnswer) : Turns (onSwitched a) := by
  intro s t h
  cases a
  · exact (gotoCapture_turns _ _ h).after ⟨rfl, rfl, rfl, rfl, rfl, rfl, rfl⟩
  · exact fail_turns _ _ _ h

theorem gotoAck_turns : Turns gotoAck := by
  intro s t h
  unfold gotoAck at h
  split at h
  · cases h; exact Turn.ofIssue (by simp) rfl
  · exact gotoBaud_turns _ _ h

theorem onAckDrained_turns : Turns onAckDrained := by
  intro s t h
  unfold onAckDrained at h
  split at h
  · exact (gotoBaud_turns _ _ h).after ⟨rfl, rfl, rfl, rfl, rfl, rfl, rfl⟩
  · exact fail_turns _ _ _ h

theorem determineMode_turns (m : Mode) : Turns (determineMode m) := fun _ _ h =>
  (gotoAck_turns _ _ h).after ⟨rfl, rfl, rfl, rfl, rfl, rfl, rfl⟩

theorem protocolMode_turns : Turns protocolMode := by
  intro s t h
  have q5 := Quiet.ofBufRead 5 s
  have q6 := q5.trans (Quiet.ofBufRead 6 (bufRead 5 s).2)
  unfold protocolMode at h
  dsimp only at h
  split at h
  · exact fail_turns _ _ _ h
  · split at h
    · split at h
      · exact (fail_turns _ _ _ h).after q5
      · split at h
        · exact (fail_turns _ _ _ h).after q6
        · exact (determineMode_turns _ _ _ h).after q6
    · exact (determineMode_turns _ _ _ h).after q5

theorem classifyStep_turns (c4 : Byte) : Turns (classifyStep c4) := by
  intro s t h
  unfold classifyStep at h
  split at h
  · exact (protocolMode_turns _ _ h).after ⟨rfl, rfl, rfl, rfl, rfl, rfl, rfl⟩
  · exact (determineMode_turns _ _ _ h).after ⟨rfl, rfl, rfl, rfl, rfl, rfl, rfl⟩
  · exact (determineMode_turns _ _ _ h).after ⟨rfl, rfl, rfl, rfl, rfl, rfl, rfl⟩
  · exact (fail_turns _ _ _ h).after ⟨rfl, rfl, rfl, rfl, rfl, rfl, rfl⟩

theorem baudIdFetch_turns : Turns baudIdFetch := by
  intro s t h
  unfold baudIdFetch at h
  dsimp only at h
  split at h
  · exact fail_turns _ _ _ h
  · split at h
    · exact (classifyStep_turns _ _ _ h).after (Quiet.ofBufRead 4 s)
    · exact (fail_turns _ _ _ h).after (Quiet.ofBufRead 4 s)

theorem idParse_turns : Turns idParse := by
  intro s t h
  have q1 := Quiet.ofBufRead (s.idLen.toNat - 2) s
  have q2 := q1.trans (Quiet.ofBufRead (s.idLen.toNat - 1) (bufRead (s.idLen.toNat - 2) s).2)
  unfold idParse at h
  dsimp only at h
  split at h
  · exact fail_turns _ _ _ h
  · split at h
    · split at h
      · exact (baudIdFetch_turns _ _ h).after q2
      · exact (fail_turns _ _ _ h).after q2
    · exact (fail_turns _ _ _ h).after q1

theorem idLineEnds_turns : Turns idLineEnds := fun _ _ h =>
  (idParse_turns _ _ h).after ⟨rfl, rfl, rfl, rfl, rfl, rfl, rfl⟩

theorem idReadNext_turns : Turns idReadNext := by
  intro s t h
  unfold idReadNext at h
  split at h
  · cases h; exact Turn.ofIssue (by simp) rfl
  · exact idLineEnds_turns _ _ h

theorem onAwaitId_turns (a : RxAnswer) : Turns (onAwaitId a) := by
  intro s t h
  cases a with
  | byte b =>
    simp only [onAwaitId] at h
    split at h
    · obtain ⟨s1, h1, h2⟩ := andThen_eq_next.1 h
      obtain ⟨-, rfl⟩ := bufWrite_eq_next.1 h1
      exact (idReadNext_turns _ _ h2).after ⟨rfl, rfl, rfl, rfl, rfl, rfl, rfl⟩
    · exact fail_turns _ _ _ h
  | empty => exact fail_turns _ _ _ h
  | error => exact fail_turns _ _ _ h

theorem onIdRead_turns (a : RxAnswer) : Turns (onIdRead a) := by
  intro s t h
  cases a with
  | byte b =>
    obtain ⟨s1, h1, h2⟩ := andThen_eq_next.1 h
    obtain ⟨-, rfl⟩ := storeByte_eq_next.1 h1
    split at h2
    · exact (idLineEnds_turns _ _ h2).after ⟨rfl, rfl, rfl, rfl, rfl, rfl, rfl⟩
    · exact (idReadNext_turns _ _ h2).after ⟨rfl, rfl, rfl, rfl, rfl, rfl, rfl⟩
  | empty => exact idLineEnds_turns _ _ h
  | error => exact fail_turns _ _ _ h

/-! ### The session -/

theorem opened_turns (t : Bool) (p : Path) : Turns (opened t p) := fun _ _ h =>
  (succeed_turns _ _ _ h).after ⟨rfl, rfl, rfl, rfl, rfl, rfl, rfl⟩

theorem openEntry_turns (p : Path) : Turns (openEntry p) := by
  intro s t h
  unfold openEntry at h
  split at h
  · exact fail_turns _ _ _ h
  · split at h
    · exact fail_turns _ _ _ h
    · cases h; exact Turn.ofIssue (by simp) rfl

theorem onAcquired_turns (p : Path) (a : AcquireAnswer) : Turns (onAcquired p a) := by
  intro s t h
  match a with
  | .fail => exact fail_turns _ _ _ h
  | .ok true => cases h; exact Turn.ofIssue (by simp) rfl
  | .ok false => exact opened_turns _ _ _ _ h

theorem openFailed_turns : Turns openFailed := by
  intro s t h; cases h; exact Turn.ofIssue (by simp) rfl

theorem onAppliedP1_turns (p : Path) (a : ApplyAnswer) : Turns (onAppliedP1 p a) := by
  intro s t h
  match a, p with
  | .fail, _ => exact openFailed_turns _ _ h
  | .ok, .p1 => exact opened_turns _ _ _ _ h
  | .ok, .d0 => cases h; exact Turn.ofIssue (by simp) rfl

theorem onAppliedD0_turns (a : ApplyAnswer) : Turns (onAppliedD0 a) := by
  intro s t h
  cases a
  · exact opened_turns _ _ _ _ h
  · exact openFailed_turns _ _ h

theorem onOpenRestored_turns : Turns onOpenRestored := fail_turns _

theorem closed_turns : Turns closed := fun _ _ h =>
  (succeed_turns _ _ _ h).after ⟨rfl, rfl, rfl, rfl, rfl, rfl, rfl⟩

theorem closeEntry_turns : Turns closeEntry := by
  intro s t h
  unfold closeEntry at h
  split at h
  · cases h; exact Turn.ofIssue (by simp) rfl
  · exact closed_turns _ _ h

/-! ## One move -/

/-- One answer consumed: the request outstanding had been answered, nothing else changes, and one answer fewer is left.
In D0_ID_PARSE, which has no request outstanding, nothing is consumed. -/
structure Consumed (s u : State) : Prop where
  rest : u = { s with env := u.env }
  host : u.env.host = s.env.host
  spent : (∃ r, outstanding s = some r ∧ s.env.answered r = true ∧ u.env.answers + 1 = s.env.answers) ∨
    (s.ctl = .d0IdParse ∧ u.env = s.env)

/-- A move consumes one answer, but for D0_ID_PARSE, and then takes one turn. -/
theorem move_consumes {s t : State} (h : move s = some (.next t)) : ∃ u, Consumed s u ∧ Turn u t := by
  have rx : ∀ {k : RxAnswer → State → Result}, outstanding s = some .rx → (∀ a, Turns (k a)) →
      onRx k s = some (.next t) → ∃ u, Consumed s u ∧ Turn u t := by
    intro k ho hk h
    obtain ⟨a, as, he, hr⟩ := onRx_eq_some.1 h
    refine ⟨_, ?_, hk a _ _ hr.symm⟩
    exact ⟨rfl, rfl, .inl ⟨_, ho, by simp [Env.answered, he], by
      simp only [Env.answers, he, List.length_cons]; omega⟩⟩
  have tx : ∀ {str : List Byte} {k : TxAnswer → State → Result}, outstanding s = some (.tx str) → (∀ a, Turns (k a)) →
      onTx str k s = some (.next t) → ∃ u, Consumed s u ∧ Turn u t := by
    intro str k ho hk h
    obtain ⟨a, as, he, hf, hr⟩ := onTx_eq_some.1 h
    refine ⟨_, ?_, hk a _ _ hr.symm⟩
    exact ⟨rfl, rfl, .inl ⟨_, ho, by simp only [Env.answered, he, hf], by
      simp only [Env.answers, he, List.length_cons]; omega⟩⟩
  have apply : ∀ {c : TransportConfig} {k : ApplyAnswer → State → Result}, outstanding s = some (.apply c) →
      (∀ a, Turns (k a)) → onApply k s = some (.next t) → ∃ u, Consumed s u ∧ Turn u t := by
    intro c k ho hk h
    obtain ⟨a, as, he, hr⟩ := onApply_eq_some.1 h
    refine ⟨_, ?_, hk a _ _ hr.symm⟩
    exact ⟨rfl, rfl, .inl ⟨_, ho, by simp [Env.answered, he], by
      simp only [Env.answers, he, List.length_cons]; omega⟩⟩
  have done : ∀ {r : Request} {k : State → Result}, outstanding s = some r → s.env.answered r = decide (0 < s.env.done) →
      Turns k → onDone k s = some (.next t) → ∃ u, Consumed s u ∧ Turn u t := by
    intro r k ho ha hk h
    obtain ⟨n, he, hr⟩ := onDone_eq_some.1 h
    refine ⟨_, ?_, hk _ _ hr.symm⟩
    exact ⟨rfl, rfl, .inl ⟨_, ho, by simp [ha, he], by
      simp only [Env.answers, he]; omega⟩⟩
  cases hc : s.ctl <;> simp only [move, hc] at h
  case idle => cases h
  case frSearch => exact rx (by simp only [outstanding, hc]) onSearch_turns h
  case frAccum => exact rx (by simp only [outstanding, hc]) onAccum_turns h
  case frTail2 => exact rx (by simp only [outstanding, hc]) onTail2_turns h
  case frTail4 => exact rx (by simp only [outstanding, hc]) onTail4_turns h
  case d0Rebase => exact apply (by simp only [outstanding, hc]; rfl) onRebased_turns h
  case d0Wake => exact tx (by simp only [outstanding, hc]) onWake_turns h
  case d0WakeDrain => exact done (by simp only [outstanding, hc]; rfl) rfl onWakeDrained_turns h
  case d0Settle => exact done (by simp only [outstanding, hc]; rfl) rfl onSettled_turns h
  case d0Signon => exact tx (by simp only [outstanding, hc]) (drainThen_turns (by simp)) h
  case d0SignonDrain => exact done (by simp only [outstanding, hc]; rfl) rfl onSignonDrained_turns h
  case d0AwaitId => exact rx (by simp only [outstanding, hc]) onAwaitId_turns h
  case d0IdRead => exact rx (by simp only [outstanding, hc]) onIdRead_turns h
  case d0IdParse =>
    exact ⟨s, ⟨rfl, rfl, .inr ⟨hc, rfl⟩⟩, idParse_turns _ _ (Option.some.inj h)⟩
  case d0Ack => exact tx (by simp only [outstanding, hc]) (drainThen_turns (by simp)) h
  case d0AckDrain => exact done (by simp only [outstanding, hc]; rfl) rfl onAckDrained_turns h
  case d0Baud => exact apply (by simp only [outstanding, hc]; rfl) onSwitched_turns h
  case d0Capture => exact rx (by simp only [outstanding, hc]) onCapture_turns h
  case d0Signoff => exact tx (by simp only [outstanding, hc]) (drainThen_turns (by simp)) h
  case d0SignoffDrain => exact done (by simp only [outstanding, hc]; rfl) rfl onSignoffDrained_turns h
  case opAcquire p =>
    obtain ⟨a, as, he, hr⟩ := onAcquire_eq_some.1 h
    refine ⟨_, ?_, onAcquired_turns _ a _ _ hr.symm⟩
    exact ⟨rfl, rfl, .inl ⟨.acquire, by simp only [outstanding, hc], by simp [Env.answered, he], by
      simp only [Env.answers, he, List.length_cons]; omega⟩⟩
  case opApplyP1 p => exact apply (by simp only [outstanding, hc]; rfl) (onAppliedP1_turns p) h
  case opApplyD0 => exact apply (by simp only [outstanding, hc]; rfl) onAppliedD0_turns h
  case opRestore => exact done (by simp only [outstanding, hc]; rfl) rfl onOpenRestored_turns h
  case rdToggle => exact apply (by simp only [outstanding, hc]; rfl) onToggled_turns h
  case rdParse =>
    obtain ⟨a, as, he, hr⟩ := onParse_eq_some.1 h
    refine ⟨_, ?_, onParsed_turns a _ _ hr.symm⟩
    exact ⟨rfl, rfl, .inl ⟨.parse s.work.telegram, by simp only [outstanding, hc], by simp [Env.answered, he], by
      simp only [Env.answers, he, List.length_cons]; omega⟩⟩
  case rdDump => exact done (by simp only [outstanding, hc]; rfl) rfl onDumped_turns h
  case clRestore => exact done (by simp only [outstanding, hc]; rfl) rfl closed_turns h

/-- No move ends in D0_ID_PARSE. -/
theorem Turn.ctl_ne_idParse {s t : State} (h : Turn s t) : t.ctl ≠ .d0IdParse := by
  rcases h.out with ⟨r, -, -, ho⟩ | ⟨-, hi⟩
  · intro hc; simp [outstanding, hc] at ho
  · simp [hi]

/-- How many moves a run can still make: one for each answer left, and one more in D0_ID_PARSE. -/
def movesLeft (s : State) : Nat := s.env.answers + if s.ctl = .d0IdParse then 1 else 0

theorem movesLeft_le (s : State) : movesLeft s ≤ s.env.answers + 1 := by
  unfold movesLeft; split <;> omega

/-- A move uses up one of them. -/
theorem move_movesLeft {s t : State} (h : move s = some (.next t)) : movesLeft t + 1 = movesLeft s := by
  obtain ⟨u, hu, ht⟩ := move_consumes h
  unfold movesLeft
  rw [if_neg ht.ctl_ne_idParse, ht.env]
  rcases hu.spent with ⟨r, ho, -, hf⟩ | ⟨hc, he⟩
  · rw [if_neg fun hc => by simp [outstanding, hc] at ho]; omega
  · rw [if_pos hc, he]

/-- None left: no move. -/
theorem move_none_of_movesLeft {s : State} (h : movesLeft s = 0) : move s = none := by
  unfold movesLeft at h
  have hp : s.ctl ≠ .d0IdParse := fun hc => by simp [hc] at h
  rw [if_neg hp] at h
  simp only [Env.answers, Nat.add_eq_zero_iff, List.length_eq_zero_iff] at h
  obtain ⟨⟨⟨⟨⟨⟨h1, h2⟩, h3⟩, h4⟩, h5⟩, h6⟩, -⟩ := h
  cases hc : s.ctl <;> simp_all [move, onRx, onTx, onApply, onAcquire, onParse, onDone]

/-! ## Running -/

theorem run_succ (k : Nat) (s : State) :
    run (k + 1) s = match move s with | none => .next s | some r => andThen r (run k) := rfl

/-- A block that waits stays as it is. -/
theorem advance_wait {s : State} (h : move s = none) : advance s = .next s := by
  unfold advance
  rw [run_succ, h]

/-- More moves than can be made change nothing. -/
theorem run_enough {k : Nat} {s : State} (h : movesLeft s ≤ k) : run k s = run (movesLeft s) s := by
  induction k generalizing s with
  | zero => rw [Nat.le_zero.1 h]
  | succ k ih =>
    cases hm : move s with
    | none =>
      rw [run_succ, hm]
      cases hl : movesLeft s with
      | zero => rfl
      | succ l => rw [run_succ, hm]
    | some r =>
      cases hl : movesLeft s with
      | zero => rw [move_none_of_movesLeft hl] at hm; cases hm
      | succ l =>
        rw [run_succ, run_succ, hm]
        cases r with
        | next t =>
          have := move_movesLeft hm
          simp only [andThen_next]
          rw [ih (by omega), show l = movesLeft t by omega]
        | fault f => rfl
        | refused f => rfl

/-- Running on is one move, then running on. -/
theorem advance_move {s : State} {r : Result} (h : move s = some r) : advance s = andThen r advance := by
  unfold advance
  rw [run_succ, h]
  cases r with
  | next t =>
    have := move_movesLeft h
    have := movesLeft_le s
    simp only [andThen_next]
    rw [run_enough (k := s.env.answers) (by omega), run_enough (movesLeft_le t)]
  | fault f => rfl
  | refused f => rfl

/-- The same, for a move to a next state. -/
theorem advance_next {s t : State} (h : move s = some (.next t)) : advance s = advance t := by
  rw [advance_move h, andThen_next]

/-- An idle block does not move. -/
theorem move_idle {s : State} (h : s.ctl = .idle) : move s = none := by simp [move, h]

/-- A command that has ended is not run on. -/
theorem advance_idle {s : State} (h : s.ctl = .idle) : advance s = .next s := advance_wait (move_idle h)

/-- Induction along a run: what every move keeps, `advance` keeps. -/
theorem advance_keeps {P : State → Prop} (hstep : ∀ s t, P s → move s = some (.next t) → P t) {s t : State}
    (hs : P s) (h : advance s = .next t) : P t := by
  suffices H : ∀ k s, P s → run k s = .next t → P t from H _ _ hs h
  intro k
  induction k with
  | zero => intro s hs h; cases h; exact hs
  | succ k ih =>
    intro s hs h
    rw [run_succ] at h
    split at h
    · cases h; exact hs
    · next r hr =>
      obtain ⟨u, rfl, hu⟩ := andThen_eq_next.1 h
      exact ih u (hstep s u hs hr) hu

end Sys2Proof.Machine
end

