-- ==== Sys2Proof/Laws/PerInstr.lean ====
section
/-! SUPPORT. One lemma per command about its word: it fits its row of spec/opcode_table.json. -/

namespace Sys2Proof.Laws.OpcodeRow

/-- "mask" and "match" of the command's row. -/
def row : Instr → Word × Word
  | .regRead _ => (0xFF00FFFF, 0x01000000)
  | .regWrite _ _ => (0xFF000000, 0x02000000)
  | .bufRead _ => (0xFFFF0000, 0x03000000)
  | .crcCompute _ => (0xFFFF0000, 0x10000000)
  | .frameRead => (0xFFFFFFFF, 0x20000000)
  | .d0Read => (0xFFFFFFFF, 0x30000000)
  | .openP1 => (0xFFFFFFFF, 0x40000000)
  | .openD0 => (0xFFFFFFFF, 0x41000000)
  | .read => (0xFFFFFFFF, 0x42000000)
  | .close => (0xFFFFFFFF, 0x43000000)

/-- The command's word, masked, is its row's match value. -/
def Statement (i : Instr) : Prop := encode i &&& (row i).1 = (row i).2

/-- A word is determined by its fields. -/
theorem eq_of_fields {v w : Word} (ho : opcField v = opcField w) (hr : regField v = regField w)
    (hi : immField v = immField w) : v = w := by
  rw [← commandWord_fields v, ← commandWord_fields w, ho, hr, hi]

/-- Masking a command word masks its fields. -/
theorem commandWord_and (o r p s : BitVec 8) (i j : BitVec 16) :
    commandWord o r i &&& commandWord p s j = commandWord (o &&& p) (r &&& s) (i &&& j) := by
  have field : ∀ (a n : Nat) (v w : Word),
      BitVec.extractLsb' a n (v &&& w) = BitVec.extractLsb' a n v &&& BitVec.extractLsb' a n w := fun a n v w => by
    ext k hk; simp
  apply eq_of_fields
  · rw [opcField_commandWord, opcField, field]
    exact congrArg₂ (· &&& ·) (opcField_commandWord o r i) (opcField_commandWord p s j)
  · rw [regField_commandWord, regField, field]
    exact congrArg₂ (· &&& ·) (regField_commandWord o r i) (regField_commandWord p s j)
  · rw [immField_commandWord, immField, field]
    exact congrArg₂ (· &&& ·) (immField_commandWord o r i) (immField_commandWord p s j)

theorem regRead (reg : BitVec 8) : Statement (.regRead reg) := by
  have h := commandWord_and 0x01 reg 0xFF 0x00 0 0xFFFF
  show commandWord 0x01 reg 0 &&& commandWord 0xFF 0x00 0xFFFF = commandWord 0x01 0 0
  simpa using h

theorem regWrite (reg : BitVec 8) (value : BitVec 16) : Statement (.regWrite reg value) := by
  have h := commandWord_and 0x02 reg 0xFF 0x00 value 0x0000
  show commandWord 0x02 reg value &&& commandWord 0xFF 0x00 0x0000 = commandWord 0x02 0 0
  simpa using h

theorem bufRead (offset : BitVec 16) : Statement (.bufRead offset) := by
  have h := commandWord_and 0x03 0 0xFF 0xFF offset 0x0000
  show commandWord 0x03 0 offset &&& commandWord 0xFF 0xFF 0x0000 = commandWord 0x03 0 0
  simpa using h

theorem crcCompute (n : BitVec 16) : Statement (.crcCompute n) := by
  have h := commandWord_and 0x10 0 0xFF 0xFF n 0x0000
  show commandWord 0x10 0 n &&& commandWord 0xFF 0xFF 0x0000 = commandWord 0x10 0 0
  simpa using h

theorem frameRead : Statement .frameRead := by unfold Statement; decide
theorem d0Read : Statement .d0Read := by unfold Statement; decide
theorem openP1 : Statement .openP1 := by unfold Statement; decide
theorem openD0 : Statement .openD0 := by unfold Statement; decide
theorem read : Statement .read := by unfold Statement; decide
theorem close : Statement .close := by unfold Statement; decide

end Sys2Proof.Laws.OpcodeRow
end

