-- ==== Sys2Proof/Tests/Slice0.lean ====
section
/-! SUPPORT. Tests whose expected results stand in the spec (95_test_vectors.md unless a rule is named), and for every
statement with hypotheses a state and operands that meet them. -/

namespace Sys2Proof.Tests

open Sys2Proof.Machine

/-! ## Helpers -/

/-- An open P1 session on a terminal: BUFCAP 64, CAPACITY 64, VTIME 10, CONFIG 0x000A0198. -/
def session : State :=
  { State.reset with
    status := { Status.reset with isOpen := true, term := true }
    config := p1Baseline 10
    capacity := 64
    vtime := 10
    bufcap := 64
    params := { bodyCheck := .intended, d0Rebase := false, chargeSearch := false, crc := .arc } }

/-- No session, CAPACITY 64, VTIME 10. -/
def unopened : State :=
  { State.reset with
    capacity := 64
    vtime := 10
    params := { bodyCheck := .intended, d0Rebase := false, chargeSearch := false, crc := .arc } }

/-- An open D0 session on a terminal. -/
def d0Session : State :=
  { session with
    status := { session.status with path := .d0 }
    config := d0Baseline (p1Baseline 10) }

/-- `s` with `Rx()` answers to come. -/
def reading (s : State) (l : List RxAnswer) : State := { s with env := { s.env with rx := l } }

/-- `s` with the buffer holding `l` from offset 0. -/
def holding (s : State) (l : List Byte) : State :=
  { s with buf := l.zipIdx.map fun c => (c.2, c.1) }

/-- `s` in control state `c`. -/
def running (s : State) (c : Ctl) : State := { s with ctl := c }

/-- The answers of a D0 read on a terminal that meets no failure, with the `Rx()` answers `l`. -/
def answering (s : State) (l : List RxAnswer) : State :=
  { s with env := { s.env with
      rx := l, tx := wakeTxAnswers ++ [.written 6, .written 6], apply := [.ok], done := 5 } }

/-- The state a command leaves, if it answers one. -/
def after (i : Instr) (s : State) : State :=
  match exec i s with
  | .next t => t
  | .fault _ => s
  | .refused _ => s

/-- Whether a command or a step answers a next state. -/
def isNext (r : Machine.Result) : Bool :=
  match r with
  | .next _ => true
  | .fault _ => false
  | .refused _ => false

/-- The state a step leaves, if it answers one. -/
def afterStep (s : State) : State :=
  match step s with
  | .next t => t
  | .fault _ => s
  | .refused _ => s

theorem exec_after {i : Instr} {s : State} (h : isNext (exec i s) = true) : exec i s = .next (after i s) := by
  unfold after
  cases hr : exec i s <;> simp_all [isNext]

theorem step_after {s : State} (h : isNext (step s) = true) : step s = .next (afterStep s) := by
  unfold afterStep
  cases hr : step s <;> simp_all [isNext]

/-- "/A!\r\n". -/
def legacyTelegram : List Byte := [0x2F, 0x41, 0x21, 0x0D, 0x0A]
/-- "/A!1234\r\n". -/
def crcTelegram : List Byte := [0x2F, 0x41, 0x21, 0x31, 0x32, 0x33, 0x34, 0x0D, 0x0A]
/-- "/ABC5\r\n". -/
def ident5 : List Byte := [0x2F, 0x41, 0x42, 0x43, 0x35, 0x0D, 0x0A]

/-! ## Well-formed commands -/

theorem test_wellFormed_reg_read : WellFormed (.regRead 0x0D) = true ∧ WellFormed (.regRead 0x0E) = false := by decide
theorem test_wellFormed_reg_write :
    WellFormed (.regWrite 0x02 0xFFFF) = true ∧ WellFormed (.regWrite 0x05 0) = true ∧
      WellFormed (.regWrite 0x01 0) = false ∧ WellFormed (.regWrite 0x06 0) = false := by decide

/-! ## Decoding, from the words of 30_encoding.md R74 and 95_test_vectors.md -/

theorem test_decode_reg_read : decode 0x01060000 = .command (.regRead 0x06) := by decide
theorem test_decode_reg_write : decode 0x0203000A = .command (.regWrite 0x03 0x000A) := by decide
theorem test_decode_buf_read : decode 0x0300002C = .command (.bufRead 44) := by decide
theorem test_decode_crc_compute : decode 0x1000002D = .command (.crcCompute 45) := by decide
theorem test_decode_frame_read : decode 0x20000000 = .command .frameRead := by decide
theorem test_decode_d0_read : decode 0x30000000 = .command .d0Read := by decide
theorem test_decode_open_p1 : decode 0x40000000 = .command .openP1 := by decide
theorem test_decode_open_d0 : decode 0x41000000 = .command .openD0 := by decide
theorem test_decode_read : decode 0x42000000 = .command .read := by decide
theorem test_decode_close : decode 0x43000000 = .command .close := by decide
/-- V-HA-1 to V-HA-4, V-HA-19 and V-HA-20. -/
theorem test_decode_illegal :
    decode 0x00000000 = .illegal .reservedOpcode ∧ decode 0x20000001 = .illegal .nonzeroImm ∧
      decode 0x20010000 = .illegal .nonzeroReg ∧ decode 0x01000001 = .illegal .nonzeroImm ∧
      decode 0xFF000000 = .illegal .reservedOpcode ∧ decode 0x44000000 = .illegal .reservedOpcode := by decide
theorem test_decodeTableWord :
    decodeTableWord 32 0x42000000 = some .read ∧ decodeTableWord 32 0x20000001 = none := by decide

/-! ## Commands -/

/-- V-HA-17 and V-HA-18: REG_READ RESULT shows the previous response and does not write RESULT. -/
theorem test_reg_read_result :
    (after (.regRead 0x0C) { unopened with result := 0xFFFFFFFF }).out = [.response 0xFFFFFFFF] ∧
      (after (.regRead 0x00) { unopened with result := 0xFFFFFFFF }).result = 0xFFFFFFFF := by decide
/-- V-HA-5. -/
theorem test_reg_read_reserved : (after (.regRead 0x0E) unopened).out = [.response 0xFFFFFFF5] := by decide
/-- V-HA-21 and V-HA-22: the high bits are dropped. -/
theorem test_reg_write_low_bits :
    (after (.regWrite 0x03 0x1234) unopened).vtime = 0x34 ∧ (after (.regWrite 0x05 6) unopened).dumpEn = false := by
  decide
/-- V-HA-7. -/
theorem test_reg_write_read_only :
    (after (.regWrite 0x06 10) unopened).result = 0xFFFFFFF5 ∧ (after (.regWrite 0x06 10) unopened).lastLen = 0 := by
  decide
/-- Program P1: BUF_READ 0 after a telegram. -/
theorem test_buf_read_written : (after (.bufRead 0) (holding session legacyTelegram)).result = 0x2F := by decide
/-- V-HA-27. -/
theorem test_buf_read_out_of_range : (after (.bufRead 64) session).result = 0xFFFFFFF5 := by decide +kernel
/-- V-CRC-1. -/
theorem test_crc_bearing :
    (after (.crcCompute 9) (holding session crcTelegram)).result = 0x81C1 ∧
      (after (.crcCompute 9) (holding session crcTelegram)).status.style = .crc := by decide +kernel
/-- V-CRC-5: a fourth digit `'!'` makes it LEGACY. -/
theorem test_crc_fourth_digit_bang :
    (after (.crcCompute 9) (holding session [0x2F, 0x41, 0x21, 0x31, 0x32, 0x33, 0x21, 0x0D, 0x0A])).status.style =
      .legacy := by decide
/-- V-FR-5: an overflow at 8 charges 8, and the scan resumes. -/
theorem test_frame_read_overflow :
    let t := after .frameRead (reading { session with bufcap := 8, maxfail := 9 }
      (rxBytes [0x2F, 0x41, 0x42, 0x43, 0x44, 0x45, 0x46, 0x47, 0x48, 0x49, 0x4A, 0x2F, 0x41, 0x21, 0x0D, 0x0A]))
    t.result = 5 ∧ t.failcnt = 8 ∧ t.out.length = 17 := by decide +kernel
/-- V-FR-22: an Error inside the tail ends nothing, the bytes obtained are charged. -/
theorem test_frame_read_error_in_tail :
    let t := after .frameRead (reading session (rxBytes [0x2F, 0x41, 0x21, 0x31] ++ [.error] ++
      rxBytes [0x32, 0x33, 0x0D, 0x0A, 0x2F, 0x21, 0x0D, 0x0A]))
    t.result = 4 ∧ t.failcnt = 8 ∧ t.out.length = 14 := by decide +kernel
/-- V-D0-1. -/
theorem test_d0_read_mode_c :
    let t := after .d0Read (answering d0Session (rxBytes (ident5 ++ [0x58, 0x21])))
    t.result = 2 ∧ t.status.word = 0x0000601F ∧ t.config.word = 0x000A01A6 ∧ t.idLen = 7 := by decide +kernel
/-- V-D0-30: a short ACK is noticed after its drain; MODE is written, ACK_SENT and the rate are not. -/
theorem test_d0_read_short_ack :
    let t := after .d0Read { d0Session with env := { d0Session.env with
      rx := rxBytes (ident5 ++ [0x58, 0x21]), tx := wakeTxAnswers ++ [.written 5], done := 4 } }
    t.result = 0xFFFFFFFE ∧ t.status.word = 0x0000001F ∧ t.config.word = 0x000A01A1 := by decide +kernel
/-- The example of R139. -/
theorem test_open_p1 :
    let t := after .openP1 { unopened with env := { unopened.env with acquire := [.ok true], apply := [.ok] } }
    t.result = 0 ∧ t.status.word = 0x00000005 ∧ t.config.word = 0x000A0198 := by decide
/-- V-HA-33. -/
theorem test_open_p1_apply_fails :
    let t := after .openP1 { unopened with env := { unopened.env with
      acquire := [.ok true], apply := [.fail], done := 1 } }
    t.result = 0xFFFFFFF7 ∧ t.status.word = 0 ∧ t.out.length = 4 := by decide
/-- The example of R140. -/
theorem test_open_d0 :
    let t := after .openD0 { unopened with env := { unopened.env with acquire := [.ok true], apply := [.ok, .ok] } }
    t.result = 0 ∧ t.status.word = 0x00000007 ∧ t.config.word = 0x000A01A1 := by decide
/-- V-HA-35. -/
theorem test_open_d0_second_apply_fails :
    let t := after .openD0 { unopened with env := { unopened.env with
      acquire := [.ok true], apply := [.ok, .fail], done := 1 } }
    t.result = 0xFFFFFFF7 ∧ t.status.word = 0 ∧ t.out.length = 5 := by decide
/-- V-RD-1: the toggle. -/
theorem test_read_toggles :
    let t := after .read (reading { session with env := { session.env with apply := [.ok] } } [.empty])
    t.result = 0 ∧ t.config.word = 0x000A0196 := by decide
/-- V-RD-6. -/
theorem test_read_reports_mismatch :
    let t := after .read (reading { session with env := { session.env with
      parse := [{ status := .accepted, errors := 0, crc := some 0x1234 }] } } (rxBytes legacyTelegram))
    t.result = 5 ∧ t.status.word = 0x00001B45 ∧ t.crcEmbedded = 0x1234 := by decide +kernel
/-- V-HA-30 and program P1's end state. -/
theorem test_close_keeps_results :
    let t := after .close { session with
      status := { session.status with
        style := .crc, crcPresent := true, parseStatus := some .accepted, parseOk := true }
      env := { session.env with done := 1 } }
    t.result = 0 ∧ t.status.word = 0x00001A80 ∧ t.config.word = 0 ∧ t.bufcap = 0 := by decide
/-- V-HA-31. -/
theorem test_close_closed : (after .close unopened).result = 0xFFFFFFFF := by decide

/-! ## Witnesses of the statements' hypotheses -/

theorem test_witness_EncodeOfDecode : decode 0x02020040 = .command (.regWrite 0x02 64) := by decide

theorem test_witness_IllegalWordsAreBadCommands :
    let s := { session with env := { session.env with host := [0x20000001] } }
    s.ctl = .idle ∧ s.env.host = 0x20000001 :: [] ∧ decode 0x20000001 = .illegal .nonzeroImm := by decide

theorem test_witness_StepRunsDecodedCommand :
    let s := { session with env := { session.env with host := [0x43000000, 0x40000000] } }
    s.ctl = .idle ∧ s.env.host = 0x43000000 :: [0x40000000] ∧ decode 0x43000000 = .command .close := by decide

theorem test_witness_IdleBlockExecutesNothing : State.reset.ctl = .idle ∧ State.reset.env.host = [] := by decide

theorem test_witness_BusyBlockTakesNoCommand : (running session .frAccum).ctl ≠ .idle := by decide

theorem test_witness_UnansweredRequestWaits :
    let s := { running session .d0WakeDrain with env := { session.env with rx := [.empty], tx := [.error] } }
    outstanding s = some .drain ∧ s.env.answered .drain = false := by decide

theorem test_witness_AnsweredRequestIsOneExchange :
    let s := reading (running session .frSearch) [.byte 0x78]
    outstanding s = some .rx ∧ s.env.answered .rx = true := by decide

/-- A command that waits, and one that ends. -/
theorem test_witness_LateAnswersMakeNoDifference :
    exec .frameRead (reading session [.byte 0x78]) = .next (after .frameRead (reading session [.byte 0x78])) ∧
      (after .frameRead (reading session [.byte 0x78])).ctl = .frSearch ∧
      exec .frameRead (reading session [.empty]) = .next (after .frameRead (reading session [.empty])) ∧
      (after .frameRead (reading session [.empty])).ctl = .idle := ⟨rfl, by decide, rfl, by decide⟩

theorem test_witness_RegReadAnswersTheRegister :
    session.ctl = .idle ∧ (registerFile session)[0x0D]? = some 64 ∧ (registerFile session)[0x0E]? = none := by decide

theorem test_witness_RegWriteStoresTheLowBits : unopened.ctl = .idle ∧ session.ctl = .idle := by decide

/-- A closed session; the first offset out of range; the last cell, written; the last cell, UNWRITTEN. -/
theorem test_witness_BufReadAnswersTheCell :
    (unopened.ctl = .idle ∧ unopened.status.isOpen = false) ∧
      (session.ctl = .idle ∧ session.status.isOpen = true ∧ session.bufcap.toNat ≤ (64 : BitVec 16).toNat) ∧
      (let s := { session with buf := [(63, 0x0A)] };
        s.ctl = .idle ∧ s.status.isOpen = true ∧ (63 : BitVec 16).toNat < s.bufcap.toNat ∧
          s.buf.read (63 : BitVec 16).toNat = some 0x0A) ∧
      ((63 : BitVec 16).toNat < session.bufcap.toNat ∧ session.buf.read (63 : BitVec 16).toNat = none) := by decide

theorem test_witness_ClosedSessionAnswersErrSession :
    unopened.ctl = .idle ∧ unopened.status.isOpen = false ∧ ((.close : Instr) = .close) := by decide

/-- The least `n`, and an `n` beyond the buffer. -/
theorem test_witness_CrcOfLegacyIsZero :
    (let s := holding session [0x21, 0x0D, 0x0A];
      Ready s ∧ 3 ≤ (3 : BitVec 16).toNat ∧ s.buf.read ((3 : BitVec 16).toNat - 3) = some 0x21) ∧
      (let s := { session with bufcap := 8, buf := [(7, 0x21)] };
        Ready s ∧ 3 ≤ (10 : BitVec 16).toNat ∧ s.buf.read ((10 : BitVec 16).toNat - 3) = some 0x21 ∧
          s.bufcap.toNat < (10 : BitVec 16).toNat) := by decide

theorem test_witness_CrcCoversThroughTheEndMarker :
    let s := holding { session with bufcap := 9 } crcTelegram
    Ready s ∧ [0x2F, 0x41, 0x21].length + 6 = (9 : BitVec 16).toNat ∧ (9 : BitVec 16).toNat ≤ s.bufcap.toNat ∧
      Holds s.buf 0 [0x2F, 0x41, 0x21] ∧ [0x2F, 0x41, 0x21].getLast? = some 0x21#8 ∧
      s.buf.read ((9 : BitVec 16).toNat - 3) = some 0x34 ∧ (0x34 : Byte) ≠ 0x21 := by
  refine ⟨by decide, by decide, by decide, ?_, by decide, by decide, by decide⟩
  unfold Holds; decide

/-- Beyond the buffer, `n` below 3, and `n = 7` with both offsets tested. -/
theorem test_witness_CrcOfNoTelegramIsZero :
    (Ready session ∧ session.bufcap.toNat < (65 : BitVec 16).toNat) ∧
      (¬ 3 ≤ (2 : BitVec 16).toNat ∧ ¬ 7 ≤ (2 : BitVec 16).toNat) ∧
      (let s := holding session [0x2F, 0x41, 0x21, 0x31, 0x32, 0x0D, 0x0A];
        Ready s ∧ (7 : BitVec 16).toNat ≤ s.bufcap.toNat ∧
          (s.buf.read ((7 : BitVec 16).toNat - 3) = some 0x32 ∧ (0x32 : Byte) ≠ 0x21) ∧
          (s.buf.read ((7 : BitVec 16).toNat - 7) = some 0x2F ∧ (0x2F : Byte) ≠ 0x21)) := by decide

theorem test_witness_CrcComputeIsPure :
    Ready (holding session crcTelegram) ∧
      ∀ i, i < (9 : BitVec 16).toNat → ((holding session crcTelegram).buf.read i).isSome := by decide

theorem test_witness_CrcDetectsEveryChangedByte :
    let s := holding { session with bufcap := 9 } crcTelegram
    Ready s ∧ s.params.crc = .arc ∧ (0x41 : Byte) ≠ 0x42 ∧ [(0x2F : Byte)].length + 1 + ([] : List Byte).length + 7 = (9 : BitVec 16).toNat ∧
      (9 : BitVec 16).toNat ≤ s.bufcap.toNat ∧ Holds s.buf 0 ([0x2F] ++ 0x41 :: [] ++ [0x21]) ∧
      s.buf.read ((9 : BitVec 16).toNat - 3) = some 0x34 ∧ (0x34 : Byte) ≠ 0x21 ∧
      exec (.crcCompute 9) s = .next (after (.crcCompute 9) s) ∧
      exec (.crcCompute 9) { s with buf := s.buf.write [(0x2F : Byte)].length 0x42 } =
        .next (after (.crcCompute 9) { s with buf := s.buf.write [(0x2F : Byte)].length 0x42 }) := by
  refine ⟨by decide, rfl, by decide, by decide, by decide, ?_, by decide, by decide, rfl, rfl⟩
  unfold Holds; decide

theorem legacyTelegram_framed : Framed legacyTelegram := .legacy [0x41] 0x0A (by decide)
theorem crcTelegram_framed : Framed crcTelegram :=
  .crcBearing [0x41] 0x31 0x32 0x33 0x34 0x0A (by decide) (by decide)

/-- A telegram that fills the buffer, with search bytes charged up to one below the budget. -/
theorem test_witness_FrameReadDeliversTheFirstTelegram :
    let s := reading { session with bufcap := 9, maxfail := 3, params := { session.params with chargeSearch := true } }
      (rxBytes [0x78, 0x78] ++ rxBytes crcTelegram ++ [.empty])
    Ready s ∧ 0x2F#8 ∉ [0x78#8, 0x78] ∧ Framed crcTelegram ∧ crcTelegram.length ≤ s.bufcap.toNat ∧
      searchWithinBudget s.params s.maxfail [0x78#8, 0x78].length ∧
      s.env.rx = rxBytes [0x78, 0x78] ++ rxBytes crcTelegram ++ [.empty] :=
  ⟨by decide, by decide, crcTelegram_framed, by decide, fun _ => .inr (by decide), rfl⟩

/-- An overflowed candidate of 8 bytes, a candidate with a bad tail (V-FR-3, V-FR-22), noise. -/
def junk : List RxAnswer :=
  rxBytes [0x2F, 0x41, 0x42, 0x43, 0x44, 0x45, 0x46, 0x47] ++
    ((rxBytes [0x2F, 0x41, 0x21] ++ [.byte 0x31, .error, .byte 0x32, .byte 0x33, .byte 0x0D, .byte 0x0A]) ++
      ([.byte 0x78] ++ []))

theorem junk_discarded (p : Params) (h : p.chargeSearch = false) : Discarded p 8 junk (8 + ((3 + 5) + (0 + 0))) := by
  refine .cons (.overflow [0x41, 0x42, 0x43, 0x44, 0x45, 0x46, 0x47] (by decide) (by decide)) ?_
  refine .cons (.badTail [0x41] [.byte 0x31, .error, .byte 0x32, .byte 0x33, .byte 0x0D, .byte 0x0A] (by decide)
    (by decide) (.crcBearing _ _ _ _ _ _ (by decide) fun h _ => ?_)) ?_
  · exact absurd (h .error (by simp)) (by simp)
  · have hn := DiscardedPiece.noise (p := p) (cap := 8) 0x78 (by decide)
    rw [h] at hn
    exact .cons hn .nil

/-- A telegram that fits exactly, with the charges one below the budget. -/
theorem test_witness_FrameReadRecovers :
    let s := reading { session with bufcap := 8, maxfail := 17 } (junk ++ rxBytes legacyTelegram ++ [.empty])
    Ready s ∧ 8 ≤ s.bufcap.toNat ∧ Discarded s.params s.bufcap.toNat junk 16 ∧ WithinBudget s.maxfail 16 ∧
      Framed legacyTelegram ∧ legacyTelegram.length ≤ s.bufcap.toNat ∧
      s.env.rx = junk ++ rxBytes legacyTelegram ++ [.empty] :=
  ⟨by decide, by decide, junk_discarded _ rfl, .inr (by decide), legacyTelegram_framed, by decide, rfl⟩

/-- The stream goes quiet while searching; inside the longest candidate; and the budget is met exactly. -/
theorem test_witness_FrameReadFindsNothing :
    (Fruitless session.params 8 0 ([] ++ [.empty]) 0) ∧
      (Fruitless session.params 8 0 ([] ++ rxBytes [0x2F, 1, 2, 3, 4, 5, 6] ++ [.error]) 0) ∧
      (let s := reading { session with bufcap := 8, maxfail := 8 }
          (([] ++ rxBytes [0x2F, 1, 2, 3, 4, 5, 6, 7]) ++ [.byte 0x2F]);
        Ready s ∧ 8 ≤ s.bufcap.toNat ∧
          Fruitless s.params s.bufcap.toNat s.maxfail ([] ++ rxBytes [0x2F, 1, 2, 3, 4, 5, 6, 7]) (0 + 8) ∧
          s.env.rx = ([] ++ rxBytes [0x2F, 1, 2, 3, 4, 5, 6, 7]) ++ [.byte 0x2F]) :=
  ⟨.quietSearching .empty .nil (.inl rfl) (.inl rfl),
    .quietAccumulating [1, 2, 3, 4, 5, 6] .error .nil (.inl rfl) (by decide) (by decide) (.inr rfl),
    by decide, by decide,
    .budgetSpent .nil (.overflow [1, 2, 3, 4, 5, 6, 7] (by decide) (by decide)) (by decide) (by decide) (by decide), rfl⟩

theorem test_witness_QuietStreamEndsFrameRead :
    (let s := reading (running session .frSearch) [.empty];
      s.ctl = .frSearch ∧ s.work.inRead = false ∧ s.env.rx = .empty :: []) ∧
      (let s := reading (running session .frAccum) [.error, .byte 0x2F];
        s.ctl = .frAccum ∧ s.work.inRead = false ∧ s.env.rx = .error :: [.byte 0x2F]) := by decide

theorem test_witness_StreamWithoutSlashHangs :
    let s := reading session (rxBytes [0x78, 0x79])
    Ready s ∧ s.params.chargeSearch = false ∧ 0x2F#8 ∉ [0x78#8, 0x79] ∧ s.env.rx = rxBytes [0x78, 0x79] := by decide

/-- The session satisfies the invariant. -/
theorem session_inv : StateInv session := by
  refine ⟨List.Pairwise.nil, by decide, by decide, rfl, by decide, ?_, trivial⟩
  intro h; exact absurd h (by decide)

theorem reading_inv {s : State} (h : StateInv s) (l : List RxAnswer) : StateInv (reading s l) :=
  ⟨h.1, h.2, h.3, h.4, h.5, h.6, h.7⟩

theorem test_witness_FrameReadOutputShape :
    let s := reading session (rxBytes crcTelegram)
    StateInv s ∧ Ready s ∧ exec .frameRead s = .next (after .frameRead s) ∧ (after .frameRead s).ctl = .idle ∧
      (after .frameRead s).result ≠ 0 :=
  ⟨reading_inv session_inv _, by decide, rfl, by decide +kernel, by decide +kernel⟩

theorem ident5_line : IdLine ident5 := ⟨[0x41, 0x42, 0x43, 0x35], rfl, by decide⟩

/-- The line and the body fill the buffer. -/
theorem test_witness_D0ReadCompletesTheHandshake :
    let s := { answering { d0Session with bufcap := 9 } (rxBytes (ident5 ++ [0x58] ++ [0x21]) ++ [.byte 0x0D]) with
      params := { session.params with d0Rebase := true } }
    let t : Terms := { mode := .modeC, baud := some .b9600, ack := true }
    let u := { s with env := { s.env with apply := [.ok, .ok] } }
    Ready u ∧ IdLine ident5 ∧ ident5[4]? = some 0x35 ∧ negotiate ident5 = .terms t ∧
      (∀ b ∈ [(0x58 : Byte)], BodyByte u.params.bodyCheck b) ∧ ident5.length + [(0x58 : Byte)].length + 1 ≤ u.bufcap.toNat ∧
      u.env.rx = rxBytes (ident5 ++ [0x58] ++ [0x21]) ++ [.byte 0x0D] ∧ u.env.tx = handshakeTxAnswers u t ++ [] ∧
      u.env.apply = handshakeApplyAnswers u t ++ [] ∧ u.env.done = handshakeDone u t + 0 := by
  refine ⟨by decide, ident5_line, by decide, by decide, ?_, by decide, rfl, by decide, by decide, by decide⟩
  intro b hb
  simp only [List.mem_singleton] at hb
  subst hb
  exact ⟨by decide, by decide, by decide⟩

/-- "/ABC5\\2\r\n". -/
def identBinary : List Byte := [0x2F, 0x41, 0x42, 0x43, 0x35, 0x5C, 0x32, 0x0D, 0x0A]

/-- The line fills the buffer; D0_READ, and READ on the D0 path. -/
theorem test_witness_BinaryMetersAreRejected :
    let s := { d0Session with bufcap := 9, env := { session.env with
      rx := rxBytes identBinary ++ [.empty], tx := wakeTxAnswers ++ [], done := 3 } }
    RunsD0 .d0Read s ∧ RunsD0 .read s ∧ Ready s ∧ IdLine identBinary ∧ identBinary.length ≤ s.bufcap.toNat ∧
      identBinary[4]? = some 0x35 ∧ 0x30#8 ≤ 0x35#8 ∧ 0x35#8 ≤ 0x36#8 ∧ identBinary[5]? = some 0x5C ∧
      identBinary[6]? = some 0x32 ∧ s.env.rx = rxBytes identBinary ++ [.empty] ∧
      s.env.tx = wakeTxAnswers ++ [] ∧ s.env.apply = (if rebases s then [.ok] else []) ++ [] ∧
      s.env.done = 3 + 0 :=
  ⟨.inl rfl, .inr ⟨rfl, rfl⟩, by decide, ⟨[0x41, 0x42, 0x43, 0x35, 0x5C, 0x32], rfl, by decide⟩, by decide, by decide,
    by decide, by decide, by decide, by decide, rfl, rfl, by decide, rfl⟩

/-- A line of a table row that is no line (V-D0-11), a line too short (V-D0-12), a full buffer (V-D0-13), and a line cut
short by Empty. -/
theorem test_witness_InvalidIdentificationIsRejected :
    let s := { d0Session with bufcap := 8, env := { session.env with
      rx := rxBytes [0x2F, 0x41, 0x0D, 0x0A] ++ [], tx := wakeTxAnswers ++ [], done := 3 } }
    (RunsD0 .d0Read s ∧ RunsD0 .read s ∧ Ready s ∧
      LineCaptured s.bufcap.toNat [0x2F, 0x41, 0x0D, 0x0A] (rxBytes [0x2F, 0x41, 0x0D, 0x0A]) ∧
      negotiate [0x2F, 0x41, 0x0D, 0x0A] = .invalid ∧ s.env.rx = rxBytes [0x2F, 0x41, 0x0D, 0x0A] ++ [] ∧
      s.env.tx = wakeTxAnswers ++ [] ∧ s.env.apply = (if rebases s then [.ok] else []) ++ [] ∧ s.env.done = 3 + 0) ∧
      LineCaptured 8 [0x2F, 1, 2, 3, 4, 5, 6, 7] (rxBytes [0x2F, 1, 2, 3, 4, 5, 6, 7]) ∧
      ¬ IdLine [0x2F, 1, 2, 3, 4, 5, 6, 7] ∧
      LineCaptured 8 [0x2F, 0x41] (rxBytes [0x2F, 0x41] ++ [.empty]) ∧ negotiate [0x2F, 0x41] = .invalid := by
  refine ⟨⟨.inl rfl, .inr ⟨rfl, rfl⟩, by decide, .newline [0x41, 0x0D] (by decide) (by decide), by decide, rfl, rfl,
    by decide, rfl⟩, .full [1, 2, 3, 4, 5, 6, 7] (by decide) (by decide), ?_,
    .quiet [0x41] (by decide) (by decide), by decide⟩
  rintro ⟨text, h, -⟩
  have hl := congrArg List.getLast? h
  rw [List.getLast?_append, Option.or_of_isSome (by rfl)] at hl
  exact absurd hl (by decide)

/-- A line of mode C that fills the buffer; D0_READ, and READ on the D0 path. -/
theorem test_witness_FullLineLeavesNoRoom :
    let ident : List Byte := [0x2F, 0x41, 0x42, 0x43, 0x35, 0x58, 0x0D, 0x0A]
    let t : Terms := { mode := .modeC, baud := some .b9600, ack := true }
    let s := { d0Session with bufcap := 8, env := { session.env with
      rx := rxBytes ident ++ [.byte 0x21], tx := wakeTxAnswers ++ [.written 6] ++ [], apply := [.ok], done := 4 } }
    RunsD0 .d0Read s ∧ RunsD0 .read s ∧ Ready s ∧ IdLine ident ∧ ident.length = s.bufcap.toNat ∧
      ident[4]? = some 0x35 ∧ negotiate ident = .terms t ∧ s.env.rx = rxBytes ident ++ [.byte 0x21] ∧
      s.env.tx = wakeTxAnswers ++ (if t.ack then [.written 6] else []) ++ [] ∧
      s.env.apply = handshakeApplyAnswers s t ++ [] ∧ s.env.done = 3 + (if t.ack then 1 else 0) + 0 :=
  ⟨.inl rfl, .inr ⟨rfl, rfl⟩, by decide, ⟨[0x41, 0x42, 0x43, 0x35, 0x58], rfl, by decide⟩, by decide, by decide,
    by decide, rfl, by decide, by decide, rfl⟩

/-- The first null and the last null. -/
theorem test_witness_FailedWakeUpAborts :
    (let s := { d0Session with env := { session.env with tx := List.replicate 0 (.written 1) ++ .error :: [] } };
      RunsD0 .d0Read s ∧ Ready s ∧ s.env.tx = List.replicate 0 (.written 1) ++ .error :: [] ∧
        s.env.apply = (if rebases s then [.ok] else []) ++ []) ∧
      (let s := { d0Session with env := { session.env with tx := List.replicate 64 (.written 1) ++ .written 0 :: [] } };
        RunsD0 .read s ∧ Ready s ∧ 64 < 65 ∧
          s.env.tx = List.replicate 64 (.written 1) ++ .written 0 :: [] ∧
          s.env.apply = (if rebases s then [.ok] else []) ++ []) :=
  ⟨⟨.inl rfl, by decide, rfl, by decide⟩, .inr ⟨rfl, rfl⟩, by decide, by decide, rfl, by decide⟩

/-- A failed read, silence, and the bytes on both sides of `'/'`. -/
theorem test_witness_MissingIdentificationAborts :
    ∀ a ∈ ([.error, .empty, .byte 0x2E, .byte 0x30] : List RxAnswer),
      let s := { d0Session with env := { session.env with rx := [a], tx := wakeTxAnswers ++ [], done := 3 } };
      RunsD0 .d0Read s ∧ RunsD0 .read s ∧ Ready s ∧ a ≠ .byte 0x2F ∧ s.env.rx = a :: [] ∧
        s.env.tx = wakeTxAnswers ++ [] ∧ s.env.apply = (if rebases s then [.ok] else []) ++ [] ∧
        s.env.done = 3 + 0 := by
  intro a ha
  have h : a ≠ .byte 0x2F := by rintro rfl; revert ha; decide
  exact ⟨.inl rfl, .inr ⟨rfl, rfl⟩, ⟨rfl, rfl⟩, h, rfl, rfl, rfl, rfl⟩

theorem test_witness_D0ReadErrorAborts :
    let s := reading (running d0Session .d0IdRead) [.error]
    s.ctl = .d0IdRead ∧ s.env.rx = .error :: [] := by decide

/-- Each of the three writes, one byte short, from its answer; and the three drains. -/
theorem test_witness_ShortWriteAborts :
    (∀ c ∈ [(Ctl.d0Signon, 5), (.d0Ack, 6), (.d0Signoff, 6)],
      let s := { running d0Session c.1 with env := { session.env with tx := [.written (c.2 - 1)], done := 1 } };
      ((s.ctl = .d0Signon ∧ c.2 = 5) ∨ (s.ctl = .d0Ack ∧ c.2 = 6) ∨ (s.ctl = .d0Signoff ∧ c.2 = 6)) ∧ c.2 - 1 < c.2 ∧
        s.env.tx = .written (c.2 - 1) :: [] ∧ s.env.done = 0 + 1) ∧
    let s := { running d0Session .d0AckDrain with
      work := { Work.reset with wrote := .written 5 }, env := { session.env with done := 1 } }
    (s.ctl = .d0AckDrain ∧ s.work.wrote ≠ .written 6 ∧ s.env.done = 0 + 1) ∧
      ((running s .d0SignoffDrain).ctl = .d0SignoffDrain ∧ (running s .d0SignoffDrain).work.wrote ≠ .written 6) ∧
      (let u := { running s .d0SignonDrain with work := { Work.reset with wrote := .written 4 } };
        u.ctl = .d0SignonDrain ∧ u.work.wrote ≠ .written 5 ∧ u.env.done = 0 + 1) := by decide

theorem test_witness_FailedApplyKeepsConfig :
    let s := { running d0Session .d0Baud with env := { session.env with apply := [.fail] } }
    s.ctl = .d0Baud ∧ s.env.apply = .fail :: [] := by decide

/-- Capturing after a line of 7 bytes with BUFCAP 9 and LEN `n`, and the answer `a` to come. -/
def capturing (n : BitVec 16) (term : Bool) (a : RxAnswer) : State :=
  reading { running d0Session .d0Capture with
    status := { d0Session.status with mode := .modeC, term := term }, bufcap := 9, idLen := 7
    work := { Work.reset with len := n } } [a]

/-- Room for two bytes, and room for one; a byte that passes, a byte that fails; any answer, on a terminal and on no
terminal. -/
theorem test_witness_CaptureTakesOneByte :
    (∀ term a, (capturing 8 term a).ctl = .d0Capture ∧ (capturing 8 term a).status.mode ≠ .probe ∧
        (capturing 8 term a).env.rx = a :: [] ∧ (capturing 8 term a).status.term = term ∧
        (capturing 8 term a).work.inRead = false) ∧
      (8 : BitVec 16) < (capturing 8 true .empty).bufcap ∧
      ¬ BodyByte (capturing 7 true .empty).params.bodyCheck 0x0D ∧
      BodyByte (capturing 7 true .empty).params.bodyCheck 0x58 ∧
      (7 : BitVec 16) + 1 < (capturing 7 true .empty).bufcap ∧ (8 : BitVec 16) + 1 = (capturing 8 true .empty).bufcap := by
  refine ⟨fun _ _ => ⟨rfl, by simp [capturing, reading], rfl, rfl, rfl⟩, ?_, ?_, ?_, ?_, rfl⟩
  · show (8 : BitVec 16) < 9; decide
  · rintro ⟨-, h, -⟩; exact absurd h (by decide)
  · exact ⟨by decide, by decide, by decide⟩
  · show (7 : BitVec 16) + 1 < 9; decide

/-- A terminal on either path, with the least CAPACITY. -/
theorem test_witness_OpenStartsASession :
    ∀ p ∈ [Path.p1, .d0], ∀ term ∈ [true, false],
      let s := { unopened with capacity := 8, env := { unopened.env with
        acquire := [.ok term]
        apply := (if term then (if p = Path.d0 then [ApplyAnswer.ok, .ok] else [.ok]) else []) ++ [] } }
      s.ctl = .idle ∧ s.status.isOpen = false ∧ 8 ≤ s.capacity.toNat ∧ s.env.acquire = .ok term :: [] ∧
        s.env.apply = (if term then (if p = .d0 then [.ok, .ok] else [.ok]) else []) ++ [] := by decide

/-- An open session; CAPACITY 7; a failed `Acquire`; each failed `Apply`. -/
theorem test_witness_FailedOpenLeavesNoTrace :
    (session.ctl = .idle ∧ session.status.isOpen = true) ∧ ({ unopened with capacity := 7 } : State).capacity.toNat < 8 ∧
      (let s := { unopened with capacity := 8, env := { unopened.env with acquire := [.fail] } };
        s.ctl = .idle ∧ s.status.isOpen = false ∧ 8 ≤ s.capacity.toNat ∧ s.env.acquire = .fail :: []) ∧
      (let s := { unopened with env := { unopened.env with acquire := [.ok true], apply := [.fail], done := 1 } };
        s.ctl = .idle ∧ s.status.isOpen = false ∧ 8 ≤ s.capacity.toNat ∧ s.env.acquire = .ok true :: [] ∧
          s.env.apply = .fail :: [] ∧ s.env.done = 0 + 1) ∧
      (let s := { unopened with env := { unopened.env with acquire := [.ok true], apply := [.ok, .fail], done := 1 } };
        s.ctl = .idle ∧ s.status.isOpen = false ∧ 8 ≤ s.capacity.toNat ∧ s.env.acquire = .ok true :: [] ∧
          s.env.apply = .ok :: .fail :: [] ∧ s.env.done = 0 + 1) := by decide

theorem test_witness_CloseEndsTheSession :
    (unopened.ctl = .idle ∧ unopened.status.isOpen = false) ∧
      (let s := { session with env := { session.env with done := 1 } };
        s.ctl = .idle ∧ s.status.isOpen = true ∧ s.env.done = 0 + (if s.status.term then 1 else 0)) := by decide

/-- A dump: a sink attached and one parse error. -/
theorem test_witness_P1ReadDeliversAndChecks :
    let o : ParseAnswer := { status := .rejected, errors := 1, crc := some 0x3DE3 }
    let s := { reading session ([] ++ rxBytes legacyTelegram ++ []) with
      dumpS := true, env := { session.env with rx := [] ++ rxBytes legacyTelegram ++ [], parse := [o], done := 1 } }
    Ready s ∧ s.status.path = .p1 ∧ 8 ≤ s.bufcap.toNat ∧ Discarded s.params s.bufcap.toNat [] 0 ∧
      WithinBudget s.maxfail 0 ∧ Framed legacyTelegram ∧ legacyTelegram.length ≤ s.bufcap.toNat ∧
      s.env.rx = [] ++ rxBytes legacyTelegram ++ [] ∧ s.env.parse = o :: [] ∧
      s.env.done = 0 + (if s.dumpS = true ∧ 0 < o.errors then 1 else 0) :=
  ⟨by decide, rfl, by decide, .nil, .inl rfl, legacyTelegram_framed, by decide, rfl, rfl, by decide⟩

/-- Not a terminal; a terminal in Probe mode whose toggle succeeds; one whose toggle fails. -/
theorem test_witness_P1ReadTogglesOnSilence :
    (let s := reading { session with status := { session.status with term := false } } (([] ++ [.empty]) ++ []);
      Ready s ∧ s.status.path = .p1 ∧ 8 ≤ s.bufcap.toNat ∧
        Fruitless s.params s.bufcap.toNat s.maxfail ([] ++ [.empty]) 0 ∧ s.env.rx = ([] ++ [.empty]) ++ [] ∧
        s.status.term = false) ∧
      ∀ a ∈ [ApplyAnswer.ok, .fail],
        let s := { session with env := { session.env with rx := ([] ++ [.empty]) ++ [], apply := [a] } }
        Ready s ∧ s.status.path = .p1 ∧ 8 ≤ s.bufcap.toNat ∧
          Fruitless s.params s.bufcap.toNat s.maxfail ([] ++ [.empty]) 0 ∧ s.env.rx = ([] ++ [.empty]) ++ [] ∧
          s.status.term = true ∧ s.status.mode = .probe ∧ s.env.apply = a :: [] := by
  refine ⟨⟨by decide, rfl, by decide, .quietSearching .empty .nil (.inl rfl) (.inl rfl), rfl, rfl⟩, fun a _ => ?_⟩
  exact ⟨⟨rfl, rfl⟩, rfl, (by decide : 8 ≤ session.bufcap.toNat), .quietSearching .empty .nil (.inl rfl) (.inl rfl), rfl, rfl, rfl, rfl⟩

theorem test_witness_D0SessionReadDelivers :
    let o : ParseAnswer := { status := .rejected, errors := 1, crc := none }
    let t : Terms := { mode := .modeC, baud := some .b9600, ack := true }
    let s := { answering { d0Session with bufcap := 8, dumpS := true } (rxBytes (ident5 ++ [] ++ [0x21]) ++ []) with
      env := { (answering d0Session (rxBytes (ident5 ++ [] ++ [0x21]) ++ [])).env with parse := [o], done := 6 } }
    Ready s ∧ s.status.path = .d0 ∧ IdLine ident5 ∧ ident5[4]? = some 0x35 ∧ negotiate ident5 = .terms t ∧
      (∀ b ∈ ([] : List Byte), BodyByte s.params.bodyCheck b) ∧
      ident5.length + ([] : List Byte).length + 1 ≤ s.bufcap.toNat ∧
      s.env.rx = rxBytes (ident5 ++ [] ++ [0x21]) ++ [] ∧ s.env.tx = handshakeTxAnswers s t ++ [] ∧
      s.env.apply = handshakeApplyAnswers s t ++ [] ∧ s.env.parse = o :: [] ∧
      s.env.done = handshakeDone s t + (if s.dumpS = true ∧ 0 < o.errors then 1 else 0) + 0 := by
  refine ⟨by decide, rfl, ident5_line, by decide, by decide, ?_, by decide, rfl, by decide, by decide, rfl, by decide⟩
  intro b hb
  simp at hb

/-- A command in progress, with a candidate of one byte. -/
def accumulating : State :=
  { running session .frAccum with buf := [(0, 0x2F)], work := { Work.reset with len := 1 }, out := [.request .rx] }

theorem accumulating_inv : StateInv accumulating := by
  refine ⟨by simp [accumulating, Memory.wf], by decide, by decide, rfl, by decide, ?_,
    ⟨rfl, by decide, by decide, by decide, ?_⟩⟩
  · intro h; exact absurd h (by decide)
  · intro i hi
    have hi0 : i = 0 := by
      have : i < 1 := hi
      omega
    subst hi0
    exact ⟨0x2F, by decide, by decide⟩

theorem test_witness_StepKeepsInvariant :
    StateInv (reading accumulating [.byte 0x21, .byte 0x0D]) ∧
      ∃ t, step (reading accumulating [.byte 0x21, .byte 0x0D]) = .next t :=
  ⟨reading_inv accumulating_inv _, _, rfl⟩

theorem test_witness_InvariantRulesOutStops : StateInv (reading accumulating [.byte 0x21]) :=
  reading_inv accumulating_inv _

/-- A move that consumes an answer, a move from D0_ID_PARSE, and a command that goes on waiting. -/
theorem test_witness_OneRequestOutstanding :
    (∃ t, move (reading accumulating [.byte 0x41]) = some (.next t)) ∧
      (∃ t, move (running d0Session .d0IdParse) = some (.next t)) ∧
    (outstanding accumulating = some .rx ∧ accumulating.out.getLast? = some (.request .rx)) ∧
      ∃ t, step (reading accumulating [.byte 0x41]) = .next t ∧ outstanding t = some .rx :=
  ⟨⟨_, rfl⟩, ⟨_, rfl⟩, by decide, _, rfl, rfl⟩

theorem test_witness_OneResponsePerCommand :
    exec .frameRead (reading session (rxBytes legacyTelegram)) =
      .next (after .frameRead (reading session (rxBytes legacyTelegram))) ∧
      (after .frameRead (reading session (rxBytes legacyTelegram))).ctl = .idle := ⟨rfl, by decide +kernel⟩

theorem test_witness_OnlyRegWriteChangesHostRegisters :
    exec .openP1 { unopened with env := { unopened.env with acquire := [.ok false] } } =
      .next (after .openP1 { unopened with env := { unopened.env with acquire := [.ok false] } }) := rfl

theorem test_witness_OnlyOpenAndCloseWriteLatches :
    exec .read (reading session (rxBytes legacyTelegram)) =
      .next (after .read (reading session (rxBytes legacyTelegram))) ∧
      (∃ t, step (reading accumulating [.empty]) = .next t) ∧ accumulating.ctl ≠ .idle ∧
      accumulating.ctl.opensOrCloses = false := ⟨rfl, ⟨_, rfl⟩, by decide, by decide⟩

/-- A D0_READ that sets ModeC, and one that goes on after a wait and sets it. -/
theorem test_witness_OnlyNegotiationSetsAMode :
    (let s := answering d0Session (rxBytes ident5);
      exec .d0Read s = .next (after .d0Read s) ∧ (after .d0Read s).status.mode ≠ s.status.mode) ∧
      (let s := after .d0Read (answering d0Session (rxBytes (ident5.take 6)));
        s.ctl ≠ .idle ∧ ∃ t, step (reading s [.byte 0x0A]) = .next t ∧ t.status.mode ≠ s.status.mode) := by
  refine ⟨⟨exec_after (by decide +kernel), by decide +kernel⟩, by decide +kernel, _, step_after (by decide +kernel),
    by decide +kernel⟩

theorem test_witness_OnlyReadsWriteTheBuffer :
    exec (.bufRead 0) (holding session legacyTelegram) = .next (after (.bufRead 0) (holding session legacyTelegram)) :=
  rfl

theorem test_witness_InternalRegistersDoNotMatter :
    exec .frameRead (reading session (rxBytes crcTelegram)) =
      .next (after .frameRead (reading session (rxBytes crcTelegram))) := rfl

/-! ## Reset -/

/-- R46: the memory of the reset state is canonical. -/
theorem test_reset_buffer_canonical : State.reset.buf.wf := by simp [State.reset, Memory.wf]

/-- A command word placed by `withFetchWord` is the next one taken: V-HA-15 from reset. -/
theorem test_fetch_word : ∃ t, step (State.reset.withFetchWord 32 0x02020007) = .next t ∧ t.capacity = 7 ∧
    t.result = 0 := ⟨_, rfl, by decide, by decide⟩

end Sys2Proof.Tests
end

/-! A step of a running command: when the block can move, and what one move leaves for the rest of the step
(00_scope.md R6, 20_memory.md R60). -/

namespace Sys2Proof.Machine

/-! ## When the block can move -/

theorem onRx_isSome (k : RxAnswer → State → Result) (s : State) :
    (onRx k s).isSome = s.env.answered .rx := by
  unfold onRx Env.answered; cases s.env.rx <;> rfl

/-- A `Written` count above the string's length answers nothing, to the block and to `Env.answered` alike (assumption
log 17). -/
theorem onTx_isSome (str : List Byte) (k : TxAnswer → State → Result) (s : State) :
    (onTx str k s).isSome = s.env.answered (.tx str) := by
  unfold onTx Env.answered
  cases s.env.tx with
  | nil => rfl
  | cons a as => cases hf : a.fits str.length <;> simp [hf]

theorem onApply_isSome (c : TransportConfig) (k : ApplyAnswer → State → Result) (s : State) :
    (onApply k s).isSome = s.env.answered (.apply c) := by
  unfold onApply Env.answered; cases s.env.apply <;> rfl

theorem onAcquire_isSome (k : AcquireAnswer → State → Result) (s : State) :
    (onAcquire k s).isSome = s.env.answered .acquire := by
  unfold onAcquire Env.answered; cases s.env.acquire <;> rfl

theorem onParse_isSome (str : List Byte) (k : ParseAnswer → State → Result) (s : State) :
    (onParse k s).isSome = s.env.answered (.parse str) := by
  unfold onParse Env.answered; cases s.env.parse <;> rfl

/-- `Drain`, `Wait`, `Restore` and `Dump` share the count of `Done` answers. -/
theorem onDone_isSome (k : State → Result) (s : State) : (onDone k s).isSome = decide (0 < s.env.done) := by
  unfold onDone; cases s.env.done <;> simp

/-- A block with a request outstanding can move exactly when that request has been answered: each control state consumes
the kind of answer it waits for (10_state.md R32, R48). -/
theorem move_isSome {s : State} {r : Request} (ho : outstanding s = some r) :
    (move s).isSome = s.env.answered r := by
  cases hc : s.ctl <;> simp only [outstanding, hc, reduceCtorEq, Option.some.injEq] at ho <;> subst ho <;>
    simp only [move, hc]
  case frSearch | frAccum | frTail2 | frTail4 | d0AwaitId | d0IdRead | d0Capture => exact onRx_isSome _ s
  case d0Wake | d0Signon | d0Ack | d0Signoff => exact onTx_isSome _ _ s
  case d0Rebase | d0Baud | opApplyP1 | opApplyD0 | rdToggle => exact onApply_isSome _ _ s
  case opAcquire => exact onAcquire_isSome _ s
  case rdParse => exact onParse_isSome _ _ s
  case d0WakeDrain | d0Settle | d0SignonDrain | d0AckDrain | d0SignoffDrain | opRestore | rdDump | clRestore =>
    exact onDone_isSome _ s

/-! ## A step of a running command -/

/-- A block with a request outstanding is running a command. -/
theorem ctl_ne_idle_of_outstanding {s : State} {r : Request} (ho : outstanding s = some r) : s.ctl ≠ .idle := by
  intro hc; simp [outstanding, hc] at ho

/-- While a command is in progress a step takes no word and runs the command on (70_reset_and_hazards.md R183). -/
theorem step_running {s : State} (h : s.ctl ≠ .idle) : step s = advance s := by
  unfold step
  split
  · contradiction
  · rfl

/-- Running on is a step, but for a command that has ended, whose block keeps the next word for the next step. -/
theorem advance_eq_step (t : State) : advance t = if t.ctl = .idle then .next t else step t := by
  split
  case isTrue hi => exact advance_idle hi
  case isFalse hr => exact (step_running hr).symm

end Sys2Proof.Machine

namespace Sys2Proof.Proofs

open Sys2Proof.Machine

/-- Settles O9: the answer makes the move possible (`move_isSome`), and running on is that move and then running on
(`advance_move`), which is the rest of the step (`advance_eq_step`). -/
theorem answeredRequestIsOneExchange : Obligations.AnsweredRequestIsOneExchange := by
  intro s r ho ha
  obtain ⟨m, hm⟩ := Option.isSome_iff_exists.1 ((move_isSome ho).trans ha)
  refine ⟨m, hm, ?_⟩
  calc step s = advance s := step_running (ctl_ne_idle_of_outstanding ho)
    _ = andThen m advance := advance_move hm
    _ = andThen m fun t => if t.ctl = .idle then .next t else step t := congrArg (andThen m) (funext advance_eq_step)

end Sys2Proof.Proofs

section
/-! The beginning of a command, the handler of each control state, and induction along a run: the layer on which the
statements about every command and every step stand (10_state.md R32, R48; 43_session.md R135). -/

namespace Sys2Proof.Machine

/-! ## How a command begins -/

/-- A command up to its first request, or to its end when it makes none (43_session.md R135): `exec_eq_start` ties it to
`exec`. -/
def start (i : Instr) (s : State) : Result :=
  match i with
  | .regRead reg => execRegRead reg s
  | .regWrite reg value => execRegWrite reg value s
  | .bufRead offset => execBufRead offset s
  | .crcCompute n => execCrcCompute n s
  | .frameRead => whenIdle s fun s => whenOpen s fun s =>
      .next (frameEntry { s with work := { s.work with inRead := false } })
  | .d0Read => whenIdle s fun s => whenOpen s fun s => .next (d0Entry { s with work := { s.work with inRead := false } })
  | .openP1 => whenIdle s (openEntry .p1)
  | .openD0 => whenIdle s (openEntry .d0)
  | .read => whenIdle s fun s => whenOpen s fun s => .next (readEntry s)
  | .close => whenIdle s fun s => whenOpen s closeEntry

/-- What has ended is not run on. -/
theorem andThen_advance_ended {r : Result} (h : ∀ t, r = .next t → t.ctl = .idle) : andThen r advance = r := by
  cases r with
  | next t => exact advance_idle (h t rfl)
  | fault f => rfl
  | refused f => rfl

theorem andThen_whenIdle (s : State) (k : State → Result) :
    andThen (whenIdle s k) advance = whenIdle s fun s => andThen (k s) advance := by
  unfold whenIdle; split <;> rfl

theorem andThen_whenOpen (s : State) (k : State → Result) :
    andThen (whenOpen s k) advance = whenOpen s fun s => andThen (k s) advance := by
  unfold whenOpen
  split
  · rfl
  · exact andThen_advance_ended fun t h => by cases h; rfl

theorem whenIdle_eq_next {s t : State} {k : State → Result} :
    whenIdle s k = .next t ↔ s.ctl = .idle ∧ k s = .next t := by
  by_cases h : s.ctl = .idle
  · simp [whenIdle_idle h, h]
  · simp [whenIdle_busy h, h]

theorem whenOpen_eq_next {s t : State} {k : State → Result} :
    whenOpen s k = .next t ↔
      (s.status.isOpen = false ∧ t = respond ErrCode.session.word s) ∨ (s.status.isOpen = true ∧ k s = .next t) := by
  cases h : s.status.isOpen
  · simp [whenOpen_closed h, eq_comm]
  · simp [whenOpen_open h]

theorem execRegRead_eq_next {reg : BitVec 8} {s t : State} :
    execRegRead reg s = .next t ↔
      s.ctl = .idle ∧ t = answer ((readRegister reg s).getD ErrCode.badCmd.word) s := by
  unfold execRegRead
  rw [whenIdle_eq_next]
  split
  all_goals rename_i h; simp [h, eq_comm]

/-- REG_WRITE changes host registers at most, and ends (43_session.md R137). -/
theorem execRegWrite_eq_next {reg : BitVec 8} {value : BitVec 16} {s t : State}
    (h : execRegWrite reg value s = .next t) : s.ctl = .idle ∧
      ∃ w c v m d, t = respond w { s with capacity := c, vtime := v, maxfail := m, dumpEn := d } := by
  obtain ⟨hi, h⟩ := whenIdle_eq_next.1 h
  refine ⟨hi, ?_⟩
  split at h
  next u hu =>
    unfold writeRegister at hu
    cases h
    split at hu <;> cases hu <;> exact ⟨_, _, _, _, _, rfl⟩
  next => cases h; exact ⟨_, s.capacity, s.vtime, s.maxfail, s.dumpEn, rfl⟩

/-- BUF_READ and CRC_COMPUTE of an open session write STYLE, CRC_COMPUTED and the count of draws at most, and end. -/
theorem execBufRead_eq_next {offset : BitVec 16} {s t : State} (h : execBufRead offset s = .next t) :
    s.ctl = .idle ∧ ∃ v d, t = respond v { s with draws := d } := by
  obtain ⟨hi, h⟩ := whenIdle_eq_next.1 h
  refine ⟨hi, ?_⟩
  rcases whenOpen_eq_next.1 h with ⟨-, rfl⟩ | ⟨-, h⟩
  · exact ⟨_, s.draws, rfl⟩
  · dsimp only at h
    split at h <;> cases h <;> rw [(bufRead_state offset.toNat s).1]
    · exact ⟨_, _, rfl⟩
    · exact ⟨_, _, rfl⟩

theorem execCrcCompute_eq_next {n : BitVec 16} {s t : State} (h : execCrcCompute n s = .next t) :
    s.ctl = .idle ∧ (t = respond ErrCode.session.word s ∨
      s.status.isOpen = true ∧ ∃ v st c d, t = respond v { setCrc st c s with draws := d }) := by
  obtain ⟨hi, h⟩ := whenIdle_eq_next.1 h
  refine ⟨hi, ?_⟩
  rcases whenOpen_eq_next.1 h with ⟨-, rfl⟩ | ⟨ho, h⟩
  · exact .inl rfl
  · obtain ⟨st, d, -, hc⟩ := crcBody_state n.toNat s
    cases h
    exact .inr ⟨ho, _, st, _, d, by rw [hc]⟩

/-- A command is its beginning, and then running on. -/
theorem exec_eq_start (i : Instr) (s : State) : exec i s = andThen (start i s) advance := by
  cases i with
  | regRead reg =>
    exact (andThen_advance_ended fun t h => by rw [(execRegRead_eq_next.1 h).2]; rfl).symm
  | regWrite reg value =>
    refine (andThen_advance_ended fun t h => ?_).symm
    obtain ⟨-, w, c, v, m, d, rfl⟩ := execRegWrite_eq_next h
    rfl
  | bufRead offset =>
    refine (andThen_advance_ended fun t h => ?_).symm
    obtain ⟨-, v, d, rfl⟩ := execBufRead_eq_next h
    rfl
  | crcCompute n =>
    refine (andThen_advance_ended fun t h => ?_).symm
    obtain ⟨-, rfl | ⟨-, v, st, c, d, rfl⟩⟩ := execCrcCompute_eq_next h <;> rfl
  | openP1 | openD0 => exact (andThen_whenIdle _ _).symm
  | frameRead | d0Read | read | close =>
    simp only [start, andThen_whenIdle, andThen_whenOpen]
    rfl

/-- What a command leaves, it leaves by its beginning and then running on. -/
theorem exec_eq_next {i : Instr} {s t : State} :
    exec i s = .next t ↔ ∃ u, start i s = .next u ∧ advance u = .next t := by
  rw [exec_eq_start, andThen_eq_next]

/-! ## The handler of a control state -/

/-- `Handles c k`: in control state `c` the block goes on with the handler `k`, for some answer. -/
inductive Handles : Ctl → (State → Result) → Prop
  | frSearch (a : RxAnswer) : Handles .frSearch (onSearch a)
  | frAccum (a : RxAnswer) : Handles .frAccum (onAccum a)
  | frTail2 (a : RxAnswer) : Handles .frTail2 (onTail2 a)
  | frTail4 (a : RxAnswer) : Handles .frTail4 (onTail4 a)
  | d0Rebase (a : ApplyAnswer) : Handles .d0Rebase (onRebased a)
  | d0Wake (a : TxAnswer) : Handles .d0Wake (onWake a)
  | d0WakeDrain : Handles .d0WakeDrain onWakeDrained
  | d0Settle : Handles .d0Settle onSettled
  | d0Signon (a : TxAnswer) : Handles .d0Signon (drainThen .d0SignonDrain a)
  | d0SignonDrain : Handles .d0SignonDrain onSignonDrained
  | d0AwaitId (a : RxAnswer) : Handles .d0AwaitId (onAwaitId a)
  | d0IdRead (a : RxAnswer) : Handles .d0IdRead (onIdRead a)
  | d0IdParse : Handles .d0IdParse idParse
  | d0Ack (a : TxAnswer) : Handles .d0Ack (drainThen .d0AckDrain a)
  | d0AckDrain : Handles .d0AckDrain onAckDrained
  | d0Baud (a : ApplyAnswer) : Handles .d0Baud (onSwitched a)
  | d0Capture (a : RxAnswer) : Handles .d0Capture (onCapture a)
  | d0Signoff (a : TxAnswer) : Handles .d0Signoff (drainThen .d0SignoffDrain a)
  | d0SignoffDrain : Handles .d0SignoffDrain onSignoffDrained
  | opAcquire (p : Path) (a : AcquireAnswer) : Handles (.opAcquire p) (onAcquired p a)
  | opApplyP1 (p : Path) (a : ApplyAnswer) : Handles (.opApplyP1 p) (onAppliedP1 p a)
  | opApplyD0 (a : ApplyAnswer) : Handles .opApplyD0 (onAppliedD0 a)
  | opRestore : Handles .opRestore onOpenRestored
  | rdToggle (a : ApplyAnswer) : Handles .rdToggle (onToggled a)
  | rdParse (a : ParseAnswer) : Handles .rdParse (onParsed a)
  | rdDump : Handles .rdDump onDumped
  | clRestore : Handles .clRestore closed

theorem Handles.turns {c : Ctl} {k : State → Result} (h : Handles c k) : Turns k := by
  cases h with
  | frSearch a => exact onSearch_turns a
  | frAccum a => exact onAccum_turns a
  | frTail2 a => exact onTail2_turns a
  | frTail4 a => exact onTail4_turns a
  | d0Rebase a => exact onRebased_turns a
  | d0Wake a => exact onWake_turns a
  | d0WakeDrain => exact onWakeDrained_turns
  | d0Settle => exact onSettled_turns
  | d0Signon a | d0Ack a | d0Signoff a => exact drainThen_turns (by simp) a
  | d0SignonDrain => exact onSignonDrained_turns
  | d0AwaitId a => exact onAwaitId_turns a
  | d0IdRead a => exact onIdRead_turns a
  | d0IdParse => exact idParse_turns
  | d0AckDrain => exact onAckDrained_turns
  | d0Baud a => exact onSwitched_turns a
  | d0Capture a => exact onCapture_turns a
  | d0SignoffDrain => exact onSignoffDrained_turns
  | opAcquire p a => exact onAcquired_turns p a
  | opApplyP1 p a => exact onAppliedP1_turns p a
  | opApplyD0 a => exact onAppliedD0_turns a
  | opRestore => exact onOpenRestored_turns
  | rdToggle a => exact onToggled_turns a
  | rdParse a => exact onParsed_turns a
  | rdDump => exact onDumped_turns
  | clRestore => exact closed_turns

/-- No more answers behind those of `e`. -/
@[simp] theorem Env.followedBy_nothing (e : Env) : e.followedBy .nothing = e := by
  simp [Env.followedBy, Env.nothing]

/-- `s` and `r` move by one handler of control state `c`: it is run once the answers `f` are left, and any block in the same
control state with more answers behind those of `s` runs the same handler on the same answer. -/
def MovesBy (s : State) (r : Result) (c : Ctl) : Prop :=
  ∃ k f, Handles c k ∧ r = k { s with env := f } ∧
    ∀ e s', s'.ctl = c → s'.env = s.env.followedBy e → move s' = some (k { s' with env := f.followedBy e })

theorem onRx_movesBy {k : RxAnswer → State → Result} {c : Ctl} {s : State} {r : Result}
    (hk : ∀ a, Handles c (k a)) (h : onRx k s = some r)
    (hm : ∀ s', s'.ctl = c → move s' = onRx k s' := by intro s' hc; simp only [move, hc]) : MovesBy s r c := by
  obtain ⟨a, as, he, rfl⟩ := onRx_eq_some.1 h
  refine ⟨_, _, hk a, rfl, fun e s' hc hs => ?_⟩
  exact (hm s' hc).trans (onRx_eq_some.2 ⟨a, as ++ e.rx, by rw [hs]; simp [Env.followedBy, he], by rw [hs]; rfl⟩)

theorem onTx_movesBy (str : State → List Byte) {n : Nat} {k : TxAnswer → State → Result} {c : Ctl} {s : State}
    {r : Result} (hk : ∀ a, Handles c (k a)) (hn : ∀ s, (str s).length = n) (h : onTx (str s) k s = some r)
    (hm : ∀ s', s'.ctl = c → move s' = onTx (str s') k s' := by intro s' hc; simp only [move, hc]) : MovesBy s r c := by
  obtain ⟨a, as, he, hf, rfl⟩ := onTx_eq_some.1 h
  refine ⟨_, _, hk a, rfl, fun e s' hc hs => ?_⟩
  exact (hm s' hc).trans (onTx_eq_some.2
    ⟨a, as ++ e.tx, by rw [hs]; simp [Env.followedBy, he], by rw [hn] at hf ⊢; exact hf, by rw [hs]; rfl⟩)

theorem onApply_movesBy {k : ApplyAnswer → State → Result} {c : Ctl} {s : State} {r : Result}
    (hk : ∀ a, Handles c (k a)) (h : onApply k s = some r)
    (hm : ∀ s', s'.ctl = c → move s' = onApply k s' := by intro s' hc; simp only [move, hc]) : MovesBy s r c := by
  obtain ⟨a, as, he, rfl⟩ := onApply_eq_some.1 h
  refine ⟨_, _, hk a, rfl, fun e s' hc hs => ?_⟩
  exact (hm s' hc).trans (onApply_eq_some.2 ⟨a, as ++ e.apply, by rw [hs]; simp [Env.followedBy, he], by rw [hs]; rfl⟩)

theorem onAcquire_movesBy {k : AcquireAnswer → State → Result} {c : Ctl} {s : State} {r : Result}
    (hk : ∀ a, Handles c (k a)) (h : onAcquire k s = some r)
    (hm : ∀ s', s'.ctl = c → move s' = onAcquire k s' := by intro s' hc; simp only [move, hc]) : MovesBy s r c := by
  obtain ⟨a, as, he, rfl⟩ := onAcquire_eq_some.1 h
  refine ⟨_, _, hk a, rfl, fun e s' hc hs => ?_⟩
  exact (hm s' hc).trans (onAcquire_eq_some.2 ⟨a, as ++ e.acquire, by rw [hs]; simp [Env.followedBy, he], by rw [hs]; rfl⟩)

theorem onParse_movesBy {k : ParseAnswer → State → Result} {c : Ctl} {s : State} {r : Result}
    (hk : ∀ a, Handles c (k a)) (h : onParse k s = some r)
    (hm : ∀ s', s'.ctl = c → move s' = onParse k s' := by intro s' hc; simp only [move, hc]) : MovesBy s r c := by
  obtain ⟨a, as, he, rfl⟩ := onParse_eq_some.1 h
  refine ⟨_, _, hk a, rfl, fun e s' hc hs => ?_⟩
  exact (hm s' hc).trans (onParse_eq_some.2 ⟨a, as ++ e.parse, by rw [hs]; simp [Env.followedBy, he], by rw [hs]; rfl⟩)

theorem onDone_movesBy {k : State → Result} {c : Ctl} {s : State} {r : Result} (hk : Handles c k)
    (h : onDone k s = some r)
    (hm : ∀ s', s'.ctl = c → move s' = onDone k s' := by intro s' hc; simp only [move, hc]) : MovesBy s r c := by
  obtain ⟨n, he, rfl⟩ := onDone_eq_some.1 h
  refine ⟨_, _, hk, rfl, fun e s' hc hs => ?_⟩
  refine (hm s' hc).trans (onDone_eq_some.2 ⟨n + e.done, ?_, by rw [hs]; rfl⟩)
  rw [hs]; simp only [Env.followedBy, he]; omega

/-- What every move is: the handler of the control state, run on the answer that is taken away. -/
theorem move_eq_some {s : State} {r : Result} (h : move s = some r) : MovesBy s r s.ctl := by
  cases hc : s.ctl <;> simp only [move, hc] at h
  case idle => cases h
  case frSearch | frAccum | frTail2 | frTail4 | d0AwaitId | d0IdRead | d0Capture =>
    exact onRx_movesBy (fun _ => by constructor) h
  case d0Rebase | d0Baud | opApplyP1 | opApplyD0 | rdToggle => exact onApply_movesBy (fun _ => by constructor) h
  case d0WakeDrain | d0Settle | d0SignonDrain | d0AckDrain | d0SignoffDrain | opRestore | rdDump | clRestore =>
    exact onDone_movesBy (by constructor) h
  case d0Wake => exact onTx_movesBy (fun _ => [0]) .d0Wake (fun _ => rfl) h
  case d0Signon => exact onTx_movesBy (fun _ => signonBytes) .d0Signon (fun _ => rfl) h
  case d0Ack => exact onTx_movesBy (fun s => ackBytes s.work.c4) .d0Ack (fun _ => ackBytes_length _) h
  case d0Signoff => exact onTx_movesBy (fun _ => signoffBytes) .d0Signoff (fun _ => rfl) h
  case d0IdParse =>
    cases h
    refine ⟨idParse, s.env, .d0IdParse, rfl, fun e s' hc hs => ?_⟩
    have hm : move s' = some (idParse s') := by simp only [move, hc]
    rw [← hs, hm]
  case opAcquire p => exact onAcquire_movesBy (fun _ => by constructor) h
  case rdParse => exact onParse_movesBy (fun _ => by constructor) h

/-! ## Induction along a run -/

/-- A run is moves, one after another, up to a state in which the block waits or is idle. -/
theorem advance_induction {motive : State → State → Prop} (wait : ∀ t, move t = none → motive t t)
    (step : ∀ s u t, move s = some (.next u) → motive u t → motive s t) {s t : State} (h : advance s = .next t) :
    motive s t := by
  induction hn : movesLeft s generalizing s with
  | zero =>
    have hm := move_none_of_movesLeft hn
    cases (advance_wait hm).symm.trans h
    exact wait _ hm
  | succ n ih =>
    cases hm : move s with
    | none =>
      cases (advance_wait hm).symm.trans h
      exact wait _ hm
    | some r =>
      obtain ⟨u, rfl, hu⟩ := andThen_eq_next.1 ((advance_move hm).symm.trans h)
      exact step s u t hm (ih hu (by have := move_movesLeft hm; omega))

end Sys2Proof.Machine
end

section
/-! What a command can see. A block whose coming answers are hidden, or whose internal registers are cleared where the
current control state does not read them before writing them (10_state.md R32), does the same up to what was hidden.
One pass over the handlers says both; LateAnswersMakeNoDifference and InternalRegistersDoNotMatter follow by one
simulation along the run. -/

namespace Sys2Proof.Machine

/-! ## Views of a state -/

/-- `s` with its answers hidden, and with the internal registers as `V` shows them unless they are shown `whole`. -/
def State.view (whole : Bool) (V : Work → Work) (s : State) : State :=
  { s with work := if whole then s.work else V s.work, env := .nothing }

/-- No internal register is live. -/
def Work.dead (_ : Work) : Work := .reset

/-- Only the mark of READ is live (60_exceptions.md R163). -/
def Work.marked (w : Work) : Work := { Work.reset with inRead := w.inRead }

/-- Live while a candidate is searched for and collected (41_framer.md R95 to R98). -/
def Work.framing (w : Work) : Work := { Work.reset with inRead := w.inRead, len := w.len, mf := w.mf }

/-- Live in the tail reads (R99, R102). -/
def Work.tailing (w : Work) : Work := { w.framing with tail := w.tail, got := w.got }

/-- Live in the wake-up (42_d0_handshake.md R113). -/
def Work.waking (w : Work) : Work := { w.marked with nulls := w.nulls }

/-- Live while a line or a body is captured (R117, R126). -/
def Work.capturing (w : Work) : Work := { w.marked with len := w.len }

/-- Live from the baud id to the switch (R119 to R124): NEWBAUD where there is a switch. -/
def Work.negotiated (w : Work) : Work :=
  { w.marked with c4 := w.c4, ackq := w.ackq, swq := w.swq, newbaud := if w.swq then w.newbaud else .unset }

/-- Live while the switch is applied (R124). -/
def Work.switching (w : Work) : Work := { w.marked with newbaud := w.newbaud }

/-- What `V` shows, and the kept `Tx` answer (R115, R123, R128). -/
def Work.withWrote (V : Work → Work) (w : Work) : Work := { V w with wrote := w.wrote }

/-- Live while the string handed to `Parse` may still be dumped (43_session.md R147). -/
def Work.parsing (w : Work) : Work := { Work.reset with telegram := w.telegram }

/-- The internal registers that a control state may read before it writes them. -/
def Ctl.live : Ctl → Work → Work
  | .frSearch | .frAccum => Work.framing
  | .frTail2 | .frTail4 => Work.tailing
  | .d0Wake => Work.waking
  | .d0Rebase | .d0WakeDrain | .d0Settle | .d0Signon | .d0AwaitId | .d0IdParse => Work.marked
  | .d0SignonDrain => Work.withWrote Work.marked
  | .d0IdRead | .d0Capture | .d0Signoff => Work.capturing
  | .d0SignoffDrain => Work.withWrote Work.capturing
  | .d0Ack => Work.negotiated
  | .d0Baud => Work.switching
  | .d0AckDrain => Work.withWrote Work.negotiated
  | .rdParse | .rdDump => Work.parsing
  | .idle | .opAcquire _ | .opApplyP1 _ | .opApplyD0 | .opRestore | .rdToggle | .clRestore => Work.dead

/-- A state as its own control state sees it. -/
def State.seen (whole : Bool) (s : State) : State := s.view whole s.ctl.live

section
variable (x : Bool) (V : Work → Work) (s : State)

@[simp] theorem view_status : (s.view x V).status = s.status := rfl
@[simp] theorem view_config : (s.view x V).config = s.config := rfl
@[simp] theorem view_capacity : (s.view x V).capacity = s.capacity := rfl
@[simp] theorem view_vtime : (s.view x V).vtime = s.vtime := rfl
@[simp] theorem view_maxfail : (s.view x V).maxfail = s.maxfail := rfl
@[simp] theorem view_dumpEn : (s.view x V).dumpEn = s.dumpEn := rfl
@[simp] theorem view_lastLen : (s.view x V).lastLen = s.lastLen := rfl
@[simp] theorem view_crcComputed : (s.view x V).crcComputed = s.crcComputed := rfl
@[simp] theorem view_crcEmbedded : (s.view x V).crcEmbedded = s.crcEmbedded := rfl
@[simp] theorem view_failcnt : (s.view x V).failcnt = s.failcnt := rfl
@[simp] theorem view_idLen : (s.view x V).idLen = s.idLen := rfl
@[simp] theorem view_parseErrors : (s.view x V).parseErrors = s.parseErrors := rfl
@[simp] theorem view_result : (s.view x V).result = s.result := rfl
@[simp] theorem view_bufcap : (s.view x V).bufcap = s.bufcap := rfl
@[simp] theorem view_buf : (s.view x V).buf = s.buf := rfl
@[simp] theorem view_dumpS : (s.view x V).dumpS = s.dumpS := rfl
@[simp] theorem view_ctl : (s.view x V).ctl = s.ctl := rfl
@[simp] theorem view_params : (s.view x V).params = s.params := rfl
@[simp] theorem view_draws : (s.view x V).draws = s.draws := rfl
@[simp] theorem view_out : (s.view x V).out = s.out := rfl

/-- Reading the buffer sees nothing of what a view hides. -/
theorem bufRead_view (i : Nat) : bufRead i (s.view x V) = ((bufRead i s).1, (bufRead i s).2.view x V) := by
  by_cases h : i < s.bufcap.toNat
  · cases hb : s.buf.read i with
    | none => rw [bufRead_unwritten h hb, bufRead_unwritten (s := s.view x V) h hb]; rfl
    | some b => rw [bufRead_written h hb, bufRead_written (s := s.view x V) h hb]
  · rw [bufRead_outOfRange h, bufRead_outOfRange (s := s.view x V) h]

theorem bufSlice_view (i n : Nat) : bufSlice i n (s.view x V) = ((bufSlice i n s).1, (bufSlice i n s).2.view x V) := by
  induction n generalizing i s with
  | zero => rfl
  | succ n ih => simp only [bufSlice, bufRead_view, ih]

theorem bangAt_view (k n : Nat) : bangAt k n (s.view x V) = ((bangAt k n s).1, (bangAt k n s).2.view x V) := by
  simp only [bangAt, bufRead_view]
  split <;> rfl

theorem crcBody_view (n : Nat) : crcBody n (s.view x V) = ((crcBody n s).1, (crcBody n s).2.view x V) := by
  simp only [crcBody, view_bufcap, bangAt_view, crcBearing, bufSlice_view, view_params]
  split_ifs <;> rfl
end


/-! ## What respects a view -/

/-- An outcome as its own control state sees it. -/
def seenOutcome (whole : Bool) (r : Result) : Result := andThen r fun t => .next (t.seen whole)

/-- `k` goes by what `V` shows of the internal registers, and by no answer still to come. -/
def Respects (V : Work → Work) (k : State → Result) : Prop :=
  ∀ x s, seenOutcome x (k (s.view x V)) = seenOutcome x (k s)

/-- States that look alike have outcomes that look alike. -/
theorem Respects.alike {V : Work → Work} {k : State → Result} (hk : Respects V k) {x : Bool} {s s' : State}
    (h : s.view x V = s'.view x V) : seenOutcome x (k s) = seenOutcome x (k s') := by
  rw [← hk x s, h, hk x s']

/-- One test, made of two states that agree on it. -/
theorem seenOutcome_ite {p q : Prop} [Decidable p] [Decidable q] {x : Bool} {a a' b b' : Result} (hpq : p ↔ q)
    (hpos : seenOutcome x a = seenOutcome x a') (hneg : seenOutcome x b = seenOutcome x b') :
    seenOutcome x (if p then a else b) = seenOutcome x (if q then a' else b') := by
  by_cases h : p
  · rw [if_pos h, if_pos (hpq.1 h), hpos]
  · rw [if_neg h, if_neg (mt hpq.2 h), hneg]

/-- Bytes written at one place in two states with the same buffer, and then a part that respects a view. -/
theorem Respects.afterWrites {V : Work → Work} {k : State → Result} (hk : Respects V k) {x : Bool} {s s' : State}
    {i : Nat} {l : List Byte} {f f' : State → State} (hb : s.buf = s'.buf) (hc : s.bufcap = s'.bufcap)
    (h : ∀ m : Memory, (f { s with buf := m }).view x V = (f' { s' with buf := m }).view x V) :
    seenOutcome x (andThen (bufWriteAll i l s) fun u => k (f u)) =
      seenOutcome x (andThen (bufWriteAll i l s') fun u => k (f' u)) := by
  induction l generalizing i s s' with
  | nil =>
    have h0 := h s.buf
    rw [show ({ s' with buf := s.buf } : State) = s' by rw [hb]] at h0
    exact hk.alike h0
  | cons b l ih =>
    by_cases hi : i < s.bufcap.toNat
    · simp only [bufWriteAll, bufWrite_inRange hi, bufWrite_inRange (hc ▸ hi), andThen_next]
      exact ih (congrArg (Memory.write · i b) hb) hc h
    · simp only [bufWriteAll, bufWrite, if_neg hi, if_neg (hc ▸ hi), andThen_refused]

/-- The same for one byte. -/
theorem Respects.afterWrite {V : Work → Work} {k : State → Result} (hk : Respects V k) {x : Bool} {s s' : State}
    {i : Nat} {b : Byte} {f f' : State → State} (hb : s.buf = s'.buf) (hc : s.bufcap = s'.bufcap)
    (h : ∀ m : Memory, (f { s with buf := m }).view x V = (f' { s' with buf := m }).view x V) :
    seenOutcome x (andThen (bufWrite i b s) fun u => k (f u)) =
      seenOutcome x (andThen (bufWrite i b s') fun u => k (f' u)) := by
  have one : ∀ (u : State) (g : State → Result), andThen (bufWriteAll i [b] u) g = andThen (bufWrite i b u) g := by
    intro u g
    unfold bufWriteAll
    cases bufWrite i b u <;> rfl
  rw [← one, ← one]
  exact hk.afterWrites hb hc h

/-- A failure shows nothing of the internal registers. -/
theorem fail_respects (V : Work → Work) (e : ErrCode) : Respects V (fail e) := by rintro (_ | _) s <;> rfl
theorem succeed_respects (v : Nat) : Respects .dead (succeed v) := by rintro (_ | _) s <;> rfl

/-! ### READ -/

theorem readDone_respects : Respects .dead readDone := fun x s => succeed_respects _ x s

theorem dumpStep_respects (e : Nat) : Respects .parsing (dumpStep e) := fun x _ =>
  seenOutcome_ite .rfl (by cases x <;> rfl) (readDone_respects.alike (by cases x <;> rfl))

theorem onDumped_respects : Respects .parsing onDumped := fun x _ => readDone_respects.alike (by cases x <;> rfl)

theorem onParsed_respects (o : ParseAnswer) : Respects .parsing (onParsed o) := by
  intro x s
  have hr : recordParse o (s.view x .parsing) = (recordParse o s).view x .parsing := rfl
  have hp : ∀ u : State, crcCheck (u.view x .parsing) = (crcCheck u).view x .parsing := fun u => by
    simp only [crcCheck, view_lastLen, crcBody_view]; rfl
  simp only [onParsed, hr, view_status, hp]
  split <;> exact dumpStep_respects _ _ _

theorem parseStep_respects (i n : Nat) : Respects .dead (parseStep i n) := by
  intro x s
  simp only [parseStep, bufSlice_view]
  cases x <;> rfl

theorem toggleStep_respects : Respects .dead toggleStep := fun x _ =>
  seenOutcome_ite .rfl (by cases x <;> rfl) (by cases x <;> rfl)

theorem onToggled_respects (a : ApplyAnswer) : Respects .dead (onToggled a) := by
  rintro (_ | _) s <;> cases a <;> rfl

theorem frameFound_respects (v : BitVec 16) : Respects .marked (frameFound v) := fun x _ =>
  seenOutcome_ite (by cases x <;> exact .rfl) ((parseStep_respects _ _).alike (by cases x <;> rfl)) (by cases x <;> rfl)

theorem frameNone_respects : Respects .marked frameNone := fun x _ =>
  seenOutcome_ite (by cases x <;> exact .rfl) (toggleStep_respects.alike (by cases x <;> rfl)) (by cases x <;> rfl)

theorem d0Found_respects (v : BitVec 16) : Respects .marked (d0Found v) := fun x _ =>
  seenOutcome_ite (by cases x <;> exact .rfl) ((parseStep_respects _ _).alike (by cases x <;> rfl)) (by cases x <;> rfl)

/-! ### The framer -/

theorem chargeThenSearch_respects (k : Nat) : Respects .framing (chargeThenSearch k) := fun x _ =>
  seenOutcome_ite (by cases x <;> exact .rfl) (frameNone_respects.alike (by cases x <;> rfl)) (by cases x <;> rfl)

theorem onSearch_respects (a : RxAnswer) : Respects .framing (onSearch a) := by
  intro x s
  cases a with
  | byte b =>
    refine seenOutcome_ite .rfl ?_ (seenOutcome_ite .rfl (chargeThenSearch_respects _ _ _) (by cases x <;> rfl))
    have accum : Respects .framing fun s => .next (gotoAccum s) := by rintro (_ | _) s <;> rfl
    exact accum.afterWrite rfl rfl fun m => by cases x <;> rfl
  | empty | error => exact frameNone_respects.alike (by cases x <;> rfl)

theorem overflow_respects : Respects .framing overflow := by
  rintro (_ | _) s <;> exact (chargeThenSearch_respects _).alike rfl

theorem afterStore_respects (b : Byte) : Respects .framing (afterStore b) := fun x s =>
  seenOutcome_ite .rfl (by cases x <;> rfl)
    (seenOutcome_ite (by cases x <;> exact .rfl) (overflow_respects x s) (by cases x <;> rfl))

theorem onAccum_respects (a : RxAnswer) : Respects .framing (onAccum a) := by
  intro x s
  cases a with
  | byte b => cases x <;> exact (afterStore_respects b).afterWrite rfl rfl fun m => rfl
  | empty | error => exact frameNone_respects.alike (by cases x <;> rfl)

theorem invalidCandidate_respects : Respects .tailing invalidCandidate := by
  rintro (_ | _) s <;> exact (chargeThenSearch_respects _).alike rfl

theorem acceptTail_respects (l : List Byte) : Respects .tailing (acceptTail l) := by
  rintro (_ | _) s <;> exact (frameFound_respects _).afterWrites rfl rfl fun m => rfl

theorem legacyCheck_respects : Respects .tailing legacyCheck := by
  intro x s
  have ht : (s.view x .tailing).work.tail = s.work.tail := by cases x <;> rfl
  have hl : (s.view x .tailing).work.len = s.work.len := by cases x <;> rfl
  simp only [legacyCheck, ht, hl]
  split
  · exact seenOutcome_ite .rfl (acceptTail_respects _ x s) (invalidCandidate_respects x s)
  · exact invalidCandidate_respects x s

theorem tail2Done_respects : Respects .tailing tail2Done := fun x s =>
  seenOutcome_ite (by cases x <;> exact .rfl) (legacyCheck_respects x s) (by cases x <;> rfl)

theorem onTail2_respects (a : RxAnswer) : Respects .tailing (onTail2 a) := fun x _ =>
  seenOutcome_ite (by cases x <;> exact .rfl) (by cases x <;> rfl) (tail2Done_respects.alike (by cases x <;> rfl))

theorem tail4Done_respects : Respects .tailing tail4Done := by
  intro x s
  have ht : (s.view x .tailing).work.tail = s.work.tail := by cases x <;> rfl
  have hl : (s.view x .tailing).work.len = s.work.len := by cases x <;> rfl
  simp only [tail4Done, ht, hl]
  split
  · exact seenOutcome_ite .rfl (acceptTail_respects _ x s) (invalidCandidate_respects x s)
  · exact invalidCandidate_respects x s

theorem onTail4_respects (a : RxAnswer) : Respects .tailing (onTail4 a) := fun x _ =>
  seenOutcome_ite (by cases x <;> exact .rfl) (by cases x <;> rfl) (tail4Done_respects.alike (by cases x <;> rfl))

/-! ### The D0 engine -/

theorem onRebased_respects (a : ApplyAnswer) : Respects .marked (onRebased a) := by
  rintro (_ | _) s <;> cases a <;> rfl

theorem onWake_respects (a : TxAnswer) : Respects .waking (onWake a) := fun x s =>
  seenOutcome_ite .rfl (seenOutcome_ite (by cases x <;> exact .rfl) (by cases x <;> rfl) (by cases x <;> rfl))
    (fail_respects _ _ x s)

theorem onWakeDrained_respects : Respects .marked onWakeDrained := by rintro (_ | _) s <;> rfl

theorem onSettled_respects : Respects .marked onSettled := by rintro (_ | _) s <;> rfl

theorem negotiated_negotiated (w : Work) : w.negotiated.negotiated = w.negotiated := by
  cases h : w.swq <;> simp [Work.negotiated, Work.marked, h]

theorem view_negotiated_twice (x : Bool) (s : State) :
    (s.view x .negotiated).view x .negotiated = s.view x .negotiated := by
  cases x
  · simp [State.view, negotiated_negotiated]
  · rfl

theorem signon_respects (a : TxAnswer) : Respects .marked (drainThen .d0SignonDrain a) := by rintro (_ | _) s <;> rfl

theorem signoff_respects (a : TxAnswer) : Respects .capturing (drainThen .d0SignoffDrain a) := by
  rintro (_ | _) s <;> rfl

theorem ack_respects (a : TxAnswer) : Respects .negotiated (drainThen .d0AckDrain a) := by
  rintro (_ | _) s
  · exact congrArg (fun w => Host.Outcome.next { (issue .drain .d0AckDrain s).view false .dead with
      work := { w with wrote := a } }) (negotiated_negotiated s.work)
  · rfl

theorem onSignonDrained_respects : Respects (.withWrote .marked) onSignonDrained := fun x s =>
  seenOutcome_ite (by cases x <;> exact .rfl) (by cases x <;> rfl) (fail_respects _ _ x s)

theorem d0Complete_respects : Respects .capturing d0Complete := by
  rintro (_ | _) s <;> exact (d0Found_respects _).alike rfl

theorem gotoSignoff_respects : Respects .capturing gotoSignoff := fun x s =>
  seenOutcome_ite .rfl (by cases x <;> rfl) (d0Complete_respects x s)

theorem onSignoffDrained_respects : Respects (.withWrote .capturing) onSignoffDrained := fun x s =>
  seenOutcome_ite (by cases x <;> exact .rfl) (d0Complete_respects.alike (by cases x <;> rfl)) (fail_respects _ _ x s)

theorem captureNext_respects : Respects .capturing captureNext := fun x s =>
  seenOutcome_ite (by cases x <;> exact .rfl) (fail_respects _ _ x s) (by cases x <;> rfl)

/-- `storeByte` and then `k`. -/
theorem Respects.afterStoreByte {k : State → Result} (hk : Respects .capturing k) (b : Byte) :
    Respects .capturing fun s => andThen (storeByte b s) k := by
  intro x s
  simp only [storeByte, andThen_assoc, andThen_next]
  cases x <;> exact hk.afterWrite rfl rfl fun m => rfl

theorem onCapture_respects (a : RxAnswer) : Respects .capturing (onCapture a) := by
  intro x s
  cases a with
  | byte b =>
    exact seenOutcome_ite .rfl (gotoSignoff_respects.afterStoreByte _ x s)
      (seenOutcome_ite .rfl (fail_respects _ _ x s) (captureNext_respects.afterStoreByte _ x s))
  | empty | error => exact fail_respects _ _ x s

theorem gotoCapture_respects : Respects .marked gotoCapture := fun x _ =>
  captureNext_respects.alike (by cases x <;> rfl)

theorem gotoBaud_respects : Respects .negotiated gotoBaud := by
  intro x s
  by_cases hs : s.work.swq
  · have hv : (s.view x .negotiated).work.swq := by cases x <;> exact hs
    have hb : (s.view x .negotiated).work.newbaud = s.work.newbaud := by
      cases x
      · exact if_pos hs
      · rfl
    simp only [gotoBaud, if_pos hs, if_pos hv, switched, hb]
    refine seenOutcome_ite .rfl ?_ (gotoCapture_respects.alike (by cases x <;> rfl))
    cases x
    · exact congrArg (fun r => Host.Outcome.next { (issue (.apply (switched s)) .d0Baud s).view false .dead with
        work := { s.work.marked with newbaud := r } }) hb
    · rfl
  · have hv : ¬ (s.view x .negotiated).work.swq := by cases x <;> exact hs
    simp only [gotoBaud, if_neg hs, if_neg hv]
    exact gotoCapture_respects.alike (by cases x <;> rfl)

theorem onSwitched_respects (a : ApplyAnswer) : Respects .switching (onSwitched a) := by
  rintro (_ | _) s <;> cases a
  · exact gotoCapture_respects.alike rfl
  · rfl
  · exact gotoCapture_respects.alike rfl
  · rfl

theorem gotoAck_respects : Respects .negotiated gotoAck := fun x s =>
  seenOutcome_ite (by cases x <;> exact .rfl)
    (by
      have hc : (s.view x .negotiated).work.c4 = s.work.c4 := by cases x <;> rfl
      rw [hc]
      exact congrArg (fun u => Host.Outcome.next (issue _ _ u)) (view_negotiated_twice x s))
    (gotoBaud_respects x s)

theorem onAckDrained_respects : Respects (.withWrote .negotiated) onAckDrained := fun x s =>
  seenOutcome_ite (by cases x <;> exact .rfl)
    (gotoBaud_respects.alike (by
      cases x
      · exact congrArg (fun w => { s.view false .dead with work := w, status := { s.status with ackSent := true } })
          (negotiated_negotiated s.work)
      · rfl))
    (fail_respects _ _ x s)

/-! ### Identification -/

theorem determineMode_respects (m : Mode) : Respects .negotiated (determineMode m) := fun x s =>
  gotoAck_respects.alike (congrArg (fun u => { u with status := { s.status with mode := m } })
    (view_negotiated_twice x s))

theorem protocolMode_respects : Respects .negotiated protocolMode := by
  intro x s
  simp only [protocolMode, bufRead_view, view_idLen]
  exact seenOutcome_ite .rfl (fail_respects _ _ x _)
    (seenOutcome_ite .rfl
      (seenOutcome_ite .rfl (fail_respects _ _ x _)
        (seenOutcome_ite .rfl (fail_respects _ _ x _) (determineMode_respects _ x _)))
      (determineMode_respects _ x _))

theorem classifyStep_respects (c4 : Byte) : Respects .marked (classifyStep c4) := by
  intro x s
  unfold classifyStep
  split
  · exact protocolMode_respects.alike (by cases x <;> rfl)
  · exact (determineMode_respects _).alike (by cases x <;> rfl)
  · exact (determineMode_respects _).alike (by cases x <;> rfl)
  · cases x <;> rfl

theorem baudIdFetch_respects : Respects .marked baudIdFetch := by
  intro x s
  simp only [baudIdFetch, bufRead_view, view_idLen]
  refine seenOutcome_ite .rfl (fail_respects _ _ x _) ?_
  split
  · exact classifyStep_respects _ x _
  · exact fail_respects _ _ x _

theorem idParse_respects : Respects .marked idParse := by
  intro x s
  simp only [idParse, bufRead_view, view_idLen]
  exact seenOutcome_ite .rfl (fail_respects _ _ x _)
    (seenOutcome_ite .rfl (seenOutcome_ite .rfl (baudIdFetch_respects x _) (fail_respects _ _ x _))
      (fail_respects _ _ x _))

theorem idLineEnds_respects : Respects .capturing idLineEnds := fun x _ => idParse_respects.alike (by cases x <;> rfl)

theorem idReadNext_respects : Respects .capturing idReadNext := fun x s =>
  seenOutcome_ite (by cases x <;> exact .rfl) (by cases x <;> rfl) (idLineEnds_respects x s)

theorem onAwaitId_respects (a : RxAnswer) : Respects .marked (onAwaitId a) := by
  intro x s
  cases a with
  | byte b =>
    exact seenOutcome_ite .rfl (idReadNext_respects.afterWrite rfl rfl fun m => by cases x <;> rfl)
      (fail_respects _ _ x s)
  | empty | error => exact fail_respects _ _ x s

theorem onIdRead_respects (a : RxAnswer) : Respects .capturing (onIdRead a) := by
  intro x s
  cases a with
  | byte b =>
    refine Respects.afterStoreByte (k := fun u => if b = chLf then idLineEnds u else idReadNext u) ?_ b x s
    exact fun x u => seenOutcome_ite .rfl (idLineEnds_respects x u) (idReadNext_respects x u)
  | empty => exact idLineEnds_respects x s
  | error => exact fail_respects _ _ x s

/-! ### The session -/

theorem openEntry_respects (p : Path) : Respects .dead (openEntry p) := fun x s =>
  seenOutcome_ite .rfl (fail_respects _ _ x s)
    (seenOutcome_ite .rfl (fail_respects _ _ x s) (by cases x <;> rfl))

theorem onAcquired_respects (p : Path) (a : AcquireAnswer) : Respects .dead (onAcquired p a) := by
  intro x s
  match a with
  | .fail | .ok true | .ok false => cases x <;> rfl

theorem onAppliedP1_respects (p : Path) (a : ApplyAnswer) : Respects .dead (onAppliedP1 p a) := by
  intro x s
  cases x <;> cases a <;> cases p <;> rfl

theorem onAppliedD0_respects (a : ApplyAnswer) : Respects .dead (onAppliedD0 a) := by
  rintro (_ | _) s <;> cases a <;> rfl

theorem closed_respects : Respects .dead closed := by rintro (_ | _) s <;> rfl

theorem closeEntry_respects : Respects .dead closeEntry := fun x s =>
  seenOutcome_ite .rfl (by cases x <;> rfl) (closed_respects x s)

/-! ## One move and one command -/

/-- Each handler goes by what is live in its control state. -/
theorem Handles.respects {c : Ctl} {k : State → Result} (h : Handles c k) : Respects c.live k := by
  cases h with
  | frSearch a => exact onSearch_respects a
  | frAccum a => exact onAccum_respects a
  | frTail2 a => exact onTail2_respects a
  | frTail4 a => exact onTail4_respects a
  | d0Rebase a => exact onRebased_respects a
  | d0Wake a => exact onWake_respects a
  | d0WakeDrain => exact onWakeDrained_respects
  | d0Settle => exact onSettled_respects
  | d0Signon a => exact signon_respects a
  | d0SignonDrain => exact onSignonDrained_respects
  | d0AwaitId a => exact onAwaitId_respects a
  | d0IdRead a => exact onIdRead_respects a
  | d0IdParse => exact idParse_respects
  | d0Ack a => exact ack_respects a
  | d0AckDrain => exact onAckDrained_respects
  | d0Baud a => exact onSwitched_respects a
  | d0Capture a => exact onCapture_respects a
  | d0Signoff a => exact signoff_respects a
  | d0SignoffDrain => exact onSignoffDrained_respects
  | opAcquire p a => exact onAcquired_respects p a
  | opApplyP1 p a => exact onAppliedP1_respects p a
  | opApplyD0 a => exact onAppliedD0_respects a
  | opRestore => exact fail_respects _ _
  | rdToggle a => exact onToggled_respects a
  | rdParse a => exact onParsed_respects a
  | rdDump => exact onDumped_respects
  | clRestore => exact closed_respects

/-! ## What a command keeps from its beginning -/

/-- The beginning of a command consumes no answer, writes no parameter, and writes a host register only as REG_WRITE
(10_state.md R24 to R27). -/
theorem start_keeps {i : Instr} {s t : State} (h : start i s = .next t) :
    t.params = s.params ∧ t.env = s.env ∧ ((∀ reg value, i ≠ .regWrite reg value) →
      t.capacity = s.capacity ∧ t.vtime = s.vtime ∧ t.maxfail = s.maxfail ∧ t.dumpEn = s.dumpEn) := by
  have turn : ∀ {u : State}, Turn u t → Quiet s u → t.params = s.params ∧ t.env = s.env ∧
      ((∀ reg value, i ≠ .regWrite reg value) →
        t.capacity = s.capacity ∧ t.vtime = s.vtime ∧ t.maxfail = s.maxfail ∧ t.dumpEn = s.dumpEn) := by
    intro u ht hq
    have k := ht.after hq
    exact ⟨k.params, k.env, fun _ => ⟨k.capacity, k.vtime, k.maxfail, k.dumpEn⟩⟩
  have quiet : Quiet s s := ⟨rfl, rfl, rfl, rfl, rfl, rfl, rfl⟩
  have ofOpen : ∀ {k : State → Result}, (∀ u, k s = .next u → Turn s u) →
      (whenIdle s fun s => whenOpen s k) = .next t → Turn s t := by
    intro k hk h
    rcases whenOpen_eq_next.1 (whenIdle_eq_next.1 h).2 with ⟨-, rfl⟩ | ⟨-, h⟩
    · exact Turn.ofRespond _ _
    · exact hk t h
  cases i with
  | regRead reg =>
    obtain ⟨-, rfl⟩ := execRegRead_eq_next.1 h
    exact ⟨rfl, rfl, fun _ => ⟨rfl, rfl, rfl, rfl⟩⟩
  | regWrite reg value =>
    obtain ⟨-, w, c, v, m, d, rfl⟩ := execRegWrite_eq_next h
    exact ⟨rfl, rfl, fun hne => absurd rfl (hne reg value)⟩
  | bufRead offset =>
    obtain ⟨-, v, d, rfl⟩ := execBufRead_eq_next h
    exact turn (Turn.ofRespond _ _) ⟨rfl, rfl, rfl, rfl, rfl, rfl, rfl⟩
  | crcCompute n =>
    obtain ⟨-, rfl | ⟨-, v, st, c, d, rfl⟩⟩ := execCrcCompute_eq_next h
    · exact turn (Turn.ofRespond _ _) quiet
    · exact turn (Turn.ofRespond _ _) ⟨rfl, rfl, rfl, rfl, rfl, rfl, rfl⟩
  | frameRead =>
    refine turn (ofOpen (fun u hu => ?_) h) quiet
    cases hu
    exact (frameEntry_turn _).after ⟨rfl, rfl, rfl, rfl, rfl, rfl, rfl⟩
  | d0Read =>
    refine turn (ofOpen (fun u hu => ?_) h) quiet
    cases hu
    exact (d0Entry_turn _).after ⟨rfl, rfl, rfl, rfl, rfl, rfl, rfl⟩
  | openP1 | openD0 => exact turn (openEntry_turns _ _ _ (whenIdle_eq_next.1 h).2) quiet
  | read => exact turn (ofOpen (fun u hu => by cases hu; exact readEntry_turn s) h) quiet
  | close => exact turn (ofOpen (closeEntry_turns s) h) quiet

/-! ## A command respects the view in which no internal register is live -/

theorem Respects.whenIdle {V : Work → Work} {k : State → Result} (hk : Respects V k) :
    Respects V fun s => whenIdle s k := fun x s => seenOutcome_ite .rfl (hk x s) rfl

theorem Respects.whenOpen {V : Work → Work} {k : State → Result} (hk : Respects V k) :
    Respects V fun s => whenOpen s k := fun x s => seenOutcome_ite .rfl (hk x s) (fail_respects V _ x s)

theorem frameEntry_respects : Respects .marked fun s => .next (frameEntry s) := by rintro (_ | _) s <;> rfl

theorem d0Entry_respects : Respects .marked fun s => .next (d0Entry s) := by
  intro x s
  simp only [d0Entry, apply_ite Host.Outcome.next]
  exact seenOutcome_ite .rfl (seenOutcome_ite .rfl (by cases x <;> rfl) (by cases x <;> rfl)) (by cases x <;> rfl)

theorem readEntry_p1 {s : State} (h : s.status.path = .p1) :
    readEntry s = frameEntry (clearOutcome { s with work := { s.work with inRead := true } }) := by
  simp only [readEntry, clearOutcome, h]

theorem readEntry_d0 {s : State} (h : s.status.path = .d0) :
    readEntry s = d0Entry (clearOutcome { s with work := { s.work with inRead := true } }) := by
  simp only [readEntry, clearOutcome, h]

theorem readEntry_respects : Respects .dead fun s => .next (readEntry s) := by
  intro x s
  have hv : (clearOutcome { s.view x .dead with work := { (s.view x .dead).work with inRead := true } }).view x .marked =
      (clearOutcome { s with work := { s.work with inRead := true } }).view x .marked := by cases x <;> rfl
  dsimp only
  cases hp : s.status.path with
  | p1 =>
    rw [readEntry_p1 hp, readEntry_p1 (s := s.view x .dead) hp]
    exact frameEntry_respects.alike hv
  | d0 =>
    rw [readEntry_d0 hp, readEntry_d0 (s := s.view x .dead) hp]
    exact d0Entry_respects.alike hv

theorem writeRegister_view (reg : BitVec 8) (value : BitVec 16) (x : Bool) (V : Work → Work) (s : State) :
    writeRegister reg value (s.view x V) = (writeRegister reg value s).map (State.view x V) := by
  unfold writeRegister
  split <;> rfl

/-- No command reads an internal register before it writes it (10_state.md R32, 42_d0_handshake.md R134). -/
theorem start_respects (i : Instr) : Respects .dead (start i) := by
  cases i with
  | regRead reg =>
    refine Respects.whenIdle (V := .dead) fun x s => ?_
    have hr : readRegister reg (s.view x .dead) = readRegister reg s := rfl
    rw [hr]
    split <;> cases x <;> rfl
  | regWrite reg value =>
    refine Respects.whenIdle (V := .dead) fun x s => ?_
    rw [writeRegister_view]
    cases writeRegister reg value s with
    | none => exact fail_respects _ _ x s
    | some u => exact succeed_respects _ x u
  | bufRead offset =>
    refine Respects.whenIdle (Respects.whenOpen (V := .dead) fun x s => ?_)
    simp only [bufRead_view]
    split
    · exact succeed_respects _ x _
    · exact fail_respects _ _ x _
  | crcCompute n =>
    refine Respects.whenIdle (Respects.whenOpen (V := .dead) fun x s => ?_)
    simp only [crcBody_view]
    exact succeed_respects _ x _
  | frameRead => exact Respects.whenIdle (Respects.whenOpen fun x s => frameEntry_respects.alike (by cases x <;> rfl))
  | d0Read => exact Respects.whenIdle (Respects.whenOpen fun x s => d0Entry_respects.alike (by cases x <;> rfl))
  | openP1 | openD0 => exact (openEntry_respects _).whenIdle
  | read => exact readEntry_respects.whenOpen.whenIdle
  | close => exact closeEntry_respects.whenOpen.whenIdle

/-! ## Two runs -/

/-- Two states that look alike, the second with the answers `e` behind those of the first. -/
structure Twin (x : Bool) (e : Env) (s s' : State) : Prop where
  seen : s.seen x = s'.seen x
  env : s'.env = s.env.followedBy e

theorem Twin.ctl {x : Bool} {e : Env} {s s' : State} (h : Twin x e s s') : s'.ctl = s.ctl :=
  (congrArg State.ctl h.seen).symm

/-- What respects a view and consumes no answer takes two states that look alike to twins. -/
theorem Respects.twin {V : Work → Work} {k : State → Result} (hk : Respects V k)
    (henv : ∀ s t, k s = .next t → t.env = s.env) {x : Bool} {e : Env} {s s' t : State} (hv : s.view x V = s'.view x V)
    (he : s'.env = s.env.followedBy e) (h : k s = .next t) : ∃ t', k s' = .next t' ∧ Twin x e t t' := by
  have ha := hk.alike hv
  rw [h] at ha
  obtain ⟨t', ht', hs⟩ := andThen_eq_next.1 ha.symm
  refine ⟨t', ht', (Host.Outcome.next.inj hs).symm, ?_⟩
  rw [henv _ _ ht', henv _ _ h, he]

/-- Twins move to twins. -/
theorem Twin.moves {x : Bool} {e : Env} {s s' t : State} (h : Twin x e s s') (hm : move s = some (.next t)) :
    ∃ t', move s' = some (.next t') ∧ Twin x e t t' := by
  obtain ⟨k, f, hk, hr, hs⟩ := move_eq_some hm
  have hv : ({ s with env := f } : State).view x s.ctl.live =
      ({ s' with env := f.followedBy e } : State).view x s.ctl.live := by
    have hv := h.seen
    rw [State.seen, State.seen, h.ctl] at hv
    exact hv
  obtain ⟨t', ht', htw⟩ := hk.respects.twin (fun u v huv => (hk.turns u v huv).env) hv rfl hr.symm
  exact ⟨t', by rw [hs e s' h.ctl h.env, ht'], htw⟩

/-- Twins run to twins: when the first comes to wait, so has the second come to the twin of that state, and runs on. -/
theorem Twin.runs {x : Bool} {e : Env} {s s' t : State} (h : Twin x e s s') (ha : advance s = .next t) :
    move t = none ∧
      ∃ t', Twin x e t t' ∧ advance s' = advance t' := by
  refine advance_induction (motive := fun s t => ∀ s', Twin x e s s' → move t = none ∧
    ∃ t', Twin x e t t' ∧ advance s' = advance t')
    (fun t ht s' hs => ⟨ht, s', hs, rfl⟩) (fun s u t hm ih s' hs => ?_) ha s' h
  obtain ⟨u', hu', htw⟩ := hs.moves hm
  obtain ⟨ht, t', htw', hadv⟩ := ih u' htw
  exact ⟨ht, t', htw', (advance_next hu').trans hadv⟩

/-- A command run in two states that look alike but for the internal registers. -/
theorem exec_twin {x : Bool} {e : Env} {i : Instr} {s s' t : State} (hv : s.view x .dead = s'.view x .dead)
    (he : s'.env = s.env.followedBy e) (h : exec i s = .next t) :
    move t = none ∧ ∃ t', Twin x e t t' ∧ exec i s' = advance t' := by
  obtain ⟨u, hu, ha⟩ := exec_eq_next.1 h
  obtain ⟨u', hu', htw⟩ := (start_respects i).twin (fun _ _ h => (start_keeps h).2.1) hv he hu
  obtain ⟨ht, t', htw', hadv⟩ := htw.runs ha
  exact ⟨ht, t', htw', by rw [exec_eq_start, hu', andThen_next, hadv]⟩

/-- Twins that show every internal register differ in the answers to come only. -/
theorem Twin.eq_withMoreAnswers {e : Env} {s s' : State} (h : Twin true e s s') : s' = s.withMoreAnswers e := by
  have hs : ({ s'.seen true with env := s'.env } : State) = { s.seen true with env := s.env.followedBy e } := by
    rw [h.seen, h.env]
  exact hs

/-- Twins with the same answers differ in the internal registers only. -/
theorem Twin.eq_withWork {x : Bool} {s s' : State} (h : Twin x .nothing s s') : s' = { s with work := s'.work } := by
  have he : s'.env = s.env := h.env.trans (Env.followedBy_nothing _)
  have hs : ({ s'.seen x with work := s'.work, env := s'.env } : State) =
      { s.seen x with work := s'.work, env := s.env } := by rw [h.seen, he]
  exact hs

/-- A block waits whatever its internal registers hold. -/
theorem Twin.waits {x : Bool} {s s' : State} (h : Twin x .nothing s s') (hw : move s = none) :
    move s' = none := by
  cases hm : move s' with
  | none => rfl
  | some r =>
    obtain ⟨k, f, -, -, hs⟩ := move_eq_some hm
    have he : s.env = s'.env.followedBy .nothing := by simp [h.env]
    rw [hs _ _ h.ctl.symm he] at hw
    cases hw

end Sys2Proof.Machine
end


section
/-! The tier 3 statements about two runs. -/

namespace Sys2Proof.Proofs

open Sys2Proof.Machine

/-- Settles O10: with every internal register shown, the two runs differ in the answers to come only, and the one with
more answers goes on from the state in which the other waits. -/
theorem lateAnswersMakeNoDifference : Obligations.LateAnswersMakeNoDifference := by
  intro i s t e h
  obtain ⟨-, t', htw, hx⟩ := exec_twin (x := true) (s := s) (s' := s.withMoreAnswers e) rfl rfl h
  rw [hx, htw.eq_withMoreAnswers]
  exact advance_eq_step _

/-- Settles O56: with only the live internal registers shown, none is live when a command begins, and both runs come to
wait, or end, in states that differ in internal registers only. -/
theorem internalRegistersDoNotMatter : Obligations.InternalRegistersDoNotMatter := by
  intro i s t w h
  obtain ⟨hw, t', htw, hx⟩ := exec_twin (x := false) (s := s) (s' := { s with work := w }) rfl
    (Env.followedBy_nothing s.env).symm h
  refine ⟨t'.work, ?_⟩
  rw [hx, advance_wait (htw.waits hw)]
  exact congrArg Host.Outcome.next htw.eq_withWork

end Sys2Proof.Proofs
end

section
/-! What a read command keeps and where it can stop: one pass over the handlers of the framer, the D0 engine and READ says
that the session latches stay (10_state.md R42), that MODE is written by the D0 engine only and never with Probe or ModeD
(R43, R122), that every written cell lies within BUFCAP (20_memory.md R56), and that the control state the handler leaves
has what its rules rely on. -/

namespace Sys2Proof.Machine

/-! ## What stays during a command other than OPEN and CLOSE -/

/-- From `s` to `t` no session latch changed, and MODE at most by the negotiation of the D0 engine, which `d0` admits. -/
structure Kept (d0 : Bool) (s t : State) : Prop where
  isOpen : t.status.isOpen = s.status.isOpen
  path : t.status.path = s.status.path
  term : t.status.term = s.status.term
  bufcap : t.bufcap = s.bufcap
  dumpS : t.dumpS = s.dumpS
  stopb : t.config.stopb = s.config.stopb
  mode : t.status.mode = s.status.mode ∨ (d0 = true ∧ t.status.mode ≠ .probe ∧ t.status.mode ≠ .modeD)
  canonical : s.buf.wf → t.buf.wf
  bounded : (∀ c ∈ s.buf, c.1 < s.bufcap.toNat) → ∀ c ∈ t.buf, c.1 < t.bufcap.toNat

/-- What `Kept` speaks of. -/
def keptFields (s : State) : Bool × Path × Bool × Mode × BitVec 16 × Bool × Bool × Memory :=
  (s.status.isOpen, s.status.path, s.status.term, s.status.mode, s.bufcap, s.dumpS, s.config.stopb, s.buf)

theorem Kept.of {d0 : Bool} {s t : State} (h : keptFields t = keptFields s) : Kept d0 s t := by
  simp only [keptFields, Prod.mk.injEq] at h
  obtain ⟨ho, hp, ht, hm, hc, hd, hs, hb⟩ := h
  exact ⟨ho, hp, ht, hc, hd, hs, .inl hm, by rw [hb]; exact id, by rw [hb, hc]; exact id⟩

theorem Kept.trans {d0 : Bool} {s t u : State} (h : Kept d0 s t) (k : Kept d0 t u) : Kept d0 s u where
  isOpen := k.isOpen.trans h.isOpen
  path := k.path.trans h.path
  term := k.term.trans h.term
  bufcap := k.bufcap.trans h.bufcap
  dumpS := k.dumpS.trans h.dumpS
  stopb := k.stopb.trans h.stopb
  mode := k.mode.elim (fun e => by rw [e]; exact h.mode) .inr
  canonical := k.canonical ∘ h.canonical
  bounded := k.bounded ∘ h.bounded

theorem Kept.mono {d0 d1 : Bool} {s t : State} (h : Kept d0 s t) (hd : d0 = true → d1 = true) : Kept d1 s t :=
  { h with mode := h.mode.imp_right (And.imp_left hd) }

/-- The offsets after a run of writes: those before, and the ones written. -/
theorem Memory.mem_writeAll {m : Memory} {i : Nat} {l : List Byte} {c : Host.Cell} (h : c ∈ m.writeAll i l) :
    c.1 < i + l.length ∨ c ∈ m := by
  induction l generalizing m i with
  | nil => exact .inr h
  | cons b l ih =>
    rw [List.length_cons]
    rcases ih h with h | h
    · exact .inl (by omega)
    · rcases Memory.mem_write h with rfl | h
      · exact .inl (by dsimp only; omega)
      · exact .inr h

/-- Bytes stored within BUFCAP. -/
theorem Kept.ofWrites {d0 : Bool} {s : State} {i : Nat} {l : List Byte}
    (h : l = [] ∨ i + l.length ≤ s.bufcap.toNat) : Kept d0 s { s with buf := s.buf.writeAll i l } := by
  refine { Kept.of (d0 := d0) (s := s) (t := s) rfl with
    canonical := fun hw => Memory.writeAll_wf hw i l
    bounded := fun hb c hc => ?_ }
  rcases h with rfl | h
  · exact hb c hc
  · rcases Memory.mem_writeAll hc with hlt | hm
    · exact lt_of_lt_of_le hlt h
    · exact hb c hm

theorem Kept.ofWrite {d0 : Bool} {s : State} {i : Nat} {b : Byte} (h : i < s.bufcap.toNat) :
    Kept d0 s { s with buf := s.buf.write i b } :=
  Kept.ofWrites (l := [b]) (.inr h)

/-- A read of the buffer: the byte, and the state with the draws counted. -/
theorem bufRead_eq (i : Nat) (s : State) : ∃ o d, bufRead i s = (o, { s with draws := d }) :=
  ⟨_, _, Prod.ext rfl (bufRead_state i s).1⟩

theorem bufSlice_eq (i n : Nat) (s : State) : ∃ l d, bufSlice i n s = (l, { s with draws := d }) :=
  ⟨_, _, Prod.ext rfl (bufSlice_state n i s).1⟩

/-! ## Where a handler stops -/

/-- A control state of a command other than OPEN and CLOSE, and of one other than the D0 engine's unless `d0`. -/
def Ctl.within (d0 : Bool) (c : Ctl) : Bool := !c.opensOrCloses && (!c.runsD0 || d0)

/-- What a handler does: it keeps what `Kept` says, stays within its command, and, from a state in which `P` holds, leaves
a control state in which what its rules rely on holds. -/
structure Ends (d0 : Bool) (P : Prop) (s t : State) : Prop where
  kept : Kept d0 s t
  within : t.ctl.within d0 = true
  control : P → CtlInv t

/-- A handler all of whose next states are such ends. -/
def EndsIn (d0 : Bool) (P : State → Prop) (k : State → Result) : Prop := ∀ s t, k s = .next t → Ends d0 (P s) s t

theorem Ends.after {d0 : Bool} {P P' : Prop} {s s1 t : State} (h : Ends d0 P s1 t) (k : Kept d0 s s1) (hp : P' → P) :
    Ends d0 P' s t :=
  ⟨k.trans h.kept, h.within, h.control ∘ hp⟩

theorem Ends.ofIssue {d0 : Bool} {P : Prop} {s : State} {r : Request} {c : Ctl} (h : P → CtlInv (issue r c s))
    (hc : c.within d0 = true := by rfl) : Ends d0 P s (issue r c s) :=
  ⟨.of rfl, hc, h⟩

theorem Ends.ofRespond {d0 : Bool} {P : Prop} (v : Word) (s : State) : Ends d0 P s (respond v s) :=
  ⟨.of rfl, rfl, fun _ => trivial⟩

section
variable {d0 : Bool}

theorem fail_ends {P : Prop} {e : ErrCode} {s t : State} (h : fail e s = .next t) : Ends d0 P s t := by
  cases h; exact .ofRespond _ _

theorem succeed_ends {P : Prop} {v : Nat} {s t : State} (h : succeed v s = .next t) : Ends d0 P s t := by
  cases h; exact .ofRespond _ _

/-! ### READ -/

/-- A session is open. -/
def Opened (s : State) : Prop := s.status.isOpen = true

/-- A session is open, and LEN is within BUFCAP. -/
def LenBounded (s : State) : Prop := s.status.isOpen = true ∧ s.work.len ≤ s.bufcap

/-- And `v` is at most LEN: the length of a telegram about to be delivered. -/
def Delivers (v : BitVec 16) (s : State) : Prop := s.status.isOpen = true ∧ v ≤ s.work.len ∧ s.work.len ≤ s.bufcap

theorem dumpStep_ends (e : Nat) : EndsIn d0 (fun s => Delivers s.lastLen s) (dumpStep e) := by
  intro s t h
  unfold dumpStep at h
  split at h
  case isTrue hd =>
    cases h
    refine .ofIssue fun ⟨ho, hv, hl⟩ => show _ ∧ _ from ⟨ho, ?_, hv, hl⟩
    exact (Bool.and_eq_true_iff.1 hd).1
  case isFalse => exact succeed_ends h

theorem onDumped_ends : EndsIn d0 (fun _ => True) onDumped := fun _ _ h =>
  (succeed_ends h).after (.of rfl) id

theorem onParsed_ends (o : ParseAnswer) : EndsIn d0 (fun s => Delivers s.lastLen s) (onParsed o) := by
  intro s t h
  unfold onParsed at h
  dsimp only at h
  split at h
  · obtain ⟨st, d, -, hc⟩ := crcBody_state (recordParse o s).lastLen.toNat (recordParse o s)
    rw [crcCheck, hc] at h
    exact (dumpStep_ends _ _ _ h).after (.of rfl) id
  · exact (dumpStep_ends _ _ _ h).after (.of rfl) id

theorem parseStep_ends (i n : Nat) : EndsIn d0 (fun s => Delivers s.lastLen s) (parseStep i n) := by
  intro s t h
  obtain ⟨l, d, hs⟩ := bufSlice_eq i n s
  simp only [parseStep, hs] at h
  cases h
  exact (Ends.ofIssue (P := Delivers s.lastLen s) id).after (.of rfl) id

theorem toggleStep_ends : EndsIn d0 (fun s => LenBounded s ∧ s.lastLen = 0) toggleStep := by
  intro s t h
  unfold toggleStep at h
  split at h
  case isTrue hc =>
    cases h
    simp only [Bool.and_eq_true, decide_eq_true_eq] at hc
    exact .ofIssue fun ⟨⟨ho, hl⟩, hz⟩ => show _ ∧ _ from ⟨ho, hc.1, hc.2, hz, hl⟩
  case isFalse => exact (succeed_ends h).after (.of rfl) id

theorem onToggled_ends (a : ApplyAnswer) : EndsIn d0 (fun _ => True) (onToggled a) := by
  intro s t h
  cases a
  · exact (succeed_ends h).after (.of rfl) id
  · exact fail_ends h

theorem frameFound_ends (v : BitVec 16) : EndsIn d0 (Delivers v) (frameFound v) := by
  intro s t h
  unfold frameFound at h
  dsimp only at h
  split at h
  · exact (parseStep_ends _ _ _ _ h).after (.of rfl) id
  · exact (succeed_ends h).after (.of rfl) id

theorem frameNone_ends : EndsIn d0 LenBounded frameNone := by
  intro s t h
  unfold frameNone at h
  dsimp only at h
  split at h
  · exact (toggleStep_ends _ _ h).after (.of rfl) fun hl => ⟨hl, rfl⟩
  · exact (succeed_ends h).after (.of rfl) id

theorem d0Found_ends (v : BitVec 16) : EndsIn d0 (Delivers v) (d0Found v) := by
  intro s t h
  unfold d0Found at h
  dsimp only at h
  split at h
  · exact (parseStep_ends _ _ _ _ h).after (.of rfl) id
  · exact (succeed_ends h).after (.of rfl) id

/-! ### The framer -/

/-- A candidate of `n` bytes stays one when a byte is written behind it. -/
theorem Candidate.write {m : Memory} {n a : Nat} (h : Candidate m n) (hn : 0 < n) (ha : n ≤ a) (b : Byte) :
    Candidate (m.write a b) n := by
  obtain ⟨hs, hb⟩ := h
  refine ⟨by rw [Memory.read_write_ne m b (by omega), hs], fun i hi => ?_⟩
  obtain ⟨c, hc, hne⟩ := hb i hi
  exact ⟨c, by rw [Memory.read_write_ne m b (by omega), hc], hne⟩

/-- A candidate and one more byte that is no `'!'`. -/
theorem Candidate.snoc {m : Memory} {n : Nat} {b : Byte} (h : Candidate m n) (hb : m.read n = some b) (hne : b ≠ chBang) :
    Candidate m (n + 1) := by
  refine ⟨h.1, fun i hi => ?_⟩
  rcases Nat.lt_succ_iff_lt_or_eq.1 hi with hlt | rfl
  · exact h.2 i hlt
  · exact ⟨b, hb, hne⟩

/-- The `'/'` just stored is a candidate of one byte. -/
theorem Candidate.slash (m : Memory) : Candidate (m.write 0 chSlash) 1 :=
  ⟨Memory.read_write_same .., fun i hi => by
    obtain rfl : i = 0 := by omega
    exact ⟨chSlash, Memory.read_write_same .., by decide⟩⟩

/-- No candidate is kept. -/
def Searching (s : State) : Prop := s.status.isOpen = true ∧ s.work.len = 0

theorem Searching.lenBounded {s : State} (h : Searching s) : LenBounded s :=
  ⟨h.1, by rw [h.2]; exact Nat.zero_le _⟩

theorem chargeThenSearch_ends (k : Nat) : EndsIn d0 Searching (chargeThenSearch k) := by
  intro s t h
  unfold chargeThenSearch at h
  dsimp only at h
  split at h
  · exact (frameNone_ends _ _ h).after (.of rfl) Searching.lenBounded
  · cases h; exact (Ends.ofIssue (P := Searching s) id).after (.of rfl) id

theorem onSearch_ends (a : RxAnswer) : EndsIn d0 (fun s => Searching s ∧ 8 ≤ s.bufcap.toNat) (onSearch a) := by
  intro s t h
  cases a with
  | byte b =>
    simp only [onSearch] at h
    split at h
    · obtain ⟨s1, h1, h2⟩ := andThen_eq_next.1 h
      obtain ⟨hi, rfl⟩ := bufWrite_eq_next.1 h1
      cases h2
      refine (Ends.ofIssue (P := Searching s ∧ 8 ≤ s.bufcap.toNat) ?_).after ((Kept.ofWrite hi).trans (.of rfl)) id
      rintro ⟨⟨ho, -⟩, hc⟩
      exact show _ ∧ _ from ⟨ho, (by decide : 0#16 < 1#16), lt_of_lt_of_le (by decide : (1#16).toNat < 8) hc,
        Candidate.slash s.buf⟩
    · split at h
      · exact (chargeThenSearch_ends _ _ _ h).after (.of rfl) And.left
      · cases h; exact .ofIssue And.left
  | empty | error => exact (frameNone_ends _ _ h).after (.of rfl) fun hp => hp.1.lenBounded

/-- Byte `b` has just been stored as the last of LEN bytes. -/
def Stored (b : Byte) (s : State) : Prop :=
  s.status.isOpen = true ∧ s.work.len ≤ s.bufcap ∧
    ∃ n, 0 < n ∧ s.work.len.toNat = n + 1 ∧ Candidate s.buf n ∧ s.buf.read n = some b

theorem afterStore_ends (b : Byte) : EndsIn d0 (Stored b) (afterStore b) := by
  intro s t h
  unfold afterStore at h
  split at h
  case isTrue hb =>
    cases h
    refine (Ends.ofIssue (P := Stored b s) ?_).after (.of rfl) id
    rintro ⟨ho, hl, n, h0, hn, hcand, hlast⟩
    refine show _ ∧ _ from ⟨ho, hl, ?_, Nat.zero_lt_two⟩
    show Ended s.buf s.work.len.toNat
    rw [hn]
    exact ⟨by omega, hcand, hb ▸ hlast⟩
  case isFalse hb =>
    split at h
    case isTrue => exact (chargeThenSearch_ends _ _ _ h).after (.of rfl) fun hp => ⟨hp.1, rfl⟩
    case isFalse hc =>
      cases h
      refine .ofIssue ?_
      rintro ⟨ho, hl, n, h0, hn, hcand, hlast⟩
      refine show _ ∧ _ from ⟨ho, ?_, BitVec.lt_of_le_ne hl hc, hn ▸ hcand.snoc hlast hb⟩
      show 0 < s.work.len.toNat
      omega

/-- What FR_ACCUM relies on (41_framer.md R97). -/
def Accumulates (s : State) : Prop :=
  s.status.isOpen = true ∧ 0 < s.work.len ∧ s.work.len < s.bufcap ∧ Candidate s.buf s.work.len.toNat

theorem onAccum_ends (a : RxAnswer) : EndsIn d0 Accumulates (onAccum a) := by
  intro s t h
  cases a with
  | byte b =>
    obtain ⟨s1, h1, h2⟩ := andThen_eq_next.1 h
    obtain ⟨hi, rfl⟩ := bufWrite_eq_next.1 h1
    refine (afterStore_ends _ _ _ h2).after ((Kept.ofWrite hi).trans (.of rfl)) ?_
    rintro ⟨ho, h0, hl, hcand⟩
    have hn := toNat_succ_of_lt hl
    refine ⟨ho, ?_, s.work.len.toNat, h0, hn, hcand.write h0 (le_refl _) b, Memory.read_write_same ..⟩
    show (s.work.len + 1).toNat ≤ s.bufcap.toNat
    rw [hn]
    exact hl
  | empty | error => exact (frameNone_ends _ _ h).after (.of rfl) fun ⟨ho, _, hl, _⟩ => ⟨ho, BitVec.le_of_lt hl⟩

theorem invalidCandidate_ends : EndsIn d0 Opened invalidCandidate := fun _ _ h =>
  (chargeThenSearch_ends _ _ _ h).after (.of rfl) fun ho => ⟨ho, rfl⟩

theorem acceptTail_ends (l : List Byte) :
    EndsIn d0 (fun s => Opened s ∧ s.work.len.toNat + l.length ≤ s.bufcap.toNat) (acceptTail l) := by
  intro s t h
  obtain ⟨s1, h1, h2⟩ := andThen_eq_next.1 h
  obtain ⟨hi, rfl⟩ := bufWriteAll_eq_next.1 h1
  refine (frameFound_ends _ _ _ h2).after ((Kept.ofWrites hi).trans (.of rfl)) ?_
  rintro ⟨ho, hl⟩
  refine ⟨ho, BitVec.le_refl _, ?_⟩
  show (s.work.len + BitVec.ofNat 16 l.length).toNat ≤ s.bufcap.toNat
  have := s.bufcap.isLt
  rw [BitVec.toNat_add, BitVec.toNat_ofNat]
  omega

theorem legacyCheck_ends : EndsIn d0 Opened legacyCheck := by
  intro s t h
  unfold legacyCheck at h
  split at h
  · split at h
    case isTrue hl => exact (acceptTail_ends _ _ _ h).after (.of rfl) fun ho => ⟨ho, hl⟩
    case isFalse => exact invalidCandidate_ends _ _ h
  · exact invalidCandidate_ends _ _ h

/-- What the tail reads rely on (41_framer.md R99, R102). -/
def Tailing (s : State) : Prop := s.status.isOpen = true ∧ s.work.len ≤ s.bufcap ∧ Ended s.buf s.work.len.toNat

theorem tail2Done_ends : EndsIn d0 (fun s => Tailing s ∧ s.work.tail.length = 2) tail2Done := by
  intro s t h
  unfold tail2Done at h
  split at h
  case isTrue => exact (legacyCheck_ends _ _ h).after (.of rfl) fun hp => hp.1.1
  case isFalse hcr =>
    cases h
    exact .ofIssue fun ⟨⟨ho, hl, he⟩, ht⟩ => show _ ∧ _ from ⟨ho, hl, he, ht.ge, ht.trans_lt (by decide), hcr⟩

theorem onTail2_ends (a : RxAnswer) : EndsIn d0 (fun s => Tailing s ∧ s.work.tail.length < 2) (onTail2 a) := by
  intro s t h
  unfold onTail2 at h
  dsimp only at h
  split at h
  case isTrue ht =>
    cases h
    refine (Ends.ofIssue (P := Tailing s) ?_).after (.of rfl) And.left
    exact fun ⟨ho, hl, he⟩ => show _ ∧ _ from ⟨ho, hl, he, ht⟩
  case isFalse ht =>
    refine (tail2Done_ends _ _ h).after (.of rfl) fun ⟨hp, hlt⟩ => ⟨hp, ?_⟩
    simp only [List.length_append, List.length_singleton] at ht ⊢
    omega

theorem tail4Done_ends : EndsIn d0 Opened tail4Done := by
  intro s t h
  unfold tail4Done at h
  split at h
  · split at h
    case isTrue hl => exact (acceptTail_ends _ _ _ h).after (.of rfl) fun ho => ⟨ho, hl.2⟩
    case isFalse => exact invalidCandidate_ends _ _ h
  · exact invalidCandidate_ends _ _ h

theorem onTail4_ends (a : RxAnswer) :
    EndsIn d0 (fun s => Tailing s ∧ 2 ≤ s.work.tail.length ∧ s.work.tail.head? ≠ some (some chCr)) (onTail4 a) := by
  intro s t h
  unfold onTail4 at h
  dsimp only at h
  split at h
  case isTrue ht =>
    cases h
    refine (Ends.ofIssue (P := Tailing s ∧ 2 ≤ s.work.tail.length ∧ s.work.tail.head? ≠ some (some chCr)) ?_).after
      (.of rfl) id
    rintro ⟨⟨ho, hl, he⟩, h2, hcr⟩
    have hne : s.work.tail ≠ [] := List.ne_nil_of_length_pos (by omega)
    refine show _ ∧ _ from ⟨ho, hl, he, ?_, ht, ?_⟩
    · show 2 ≤ (s.work.tail ++ [probeOf a]).length
      rw [List.length_append]
      omega
    · show (s.work.tail ++ [probeOf a]).head? ≠ some (some chCr)
      rwa [List.head?_append_of_ne_nil _ hne]
  case isFalse => exact (tail4Done_ends _ _ h).after (.of rfl) fun hp => hp.1.1

end

/-! ### The D0 engine -/

theorem sendNull_ends (s : State) : Ends true (Opened s ∧ s.work.nulls < 65) s (sendNull s) :=
  .ofIssue fun ⟨ho, hn⟩ => show _ ∧ _ from ⟨ho, hn⟩

theorem gotoWake_ends (s : State) : Ends true (Opened s) s (gotoWake s) :=
  (sendNull_ends _).after (.of rfl) fun ho => ⟨ho, (by decide : 0 < 65)⟩

theorem onRebased_ends (a : ApplyAnswer) : EndsIn true Opened (onRebased a) := by
  intro s t h
  cases a
  · cases h; exact (gotoWake_ends _).after (.of rfl) id
  · exact fail_ends h

theorem onWake_ends (a : TxAnswer) : EndsIn true Opened (onWake a) := by
  intro s t h
  unfold onWake at h
  split at h
  · dsimp only at h
    split at h
    case isTrue hn => cases h; exact (sendNull_ends _).after (.of rfl) fun ho => ⟨ho, hn⟩
    case isFalse => cases h; exact (Ends.ofIssue (P := Opened s) id).after (.of rfl) id
  · exact fail_ends h

theorem onWakeDrained_ends : EndsIn true Opened onWakeDrained := by intro s t h; cases h; exact .ofIssue id

theorem onSettled_ends : EndsIn true Opened onSettled := by intro s t h; cases h; exact .ofIssue id

theorem onSignonDrained_ends : EndsIn true Opened onSignonDrained := by
  intro s t h
  unfold onSignonDrained at h
  split at h
  · cases h; exact .ofIssue id
  · exact fail_ends h

/-- The telegram proper ends at LEN, behind the identification line (42_d0_handshake.md R126, R128). -/
def Captured (s : State) : Prop := s.status.isOpen = true ∧ s.idLen < s.work.len ∧ s.work.len ≤ s.bufcap

theorem d0Complete_ends : EndsIn true Captured d0Complete := by
  intro s t h
  refine (d0Found_ends _ _ _ h).after (.of rfl) fun ⟨ho, hi, hl⟩ => ⟨ho, ?_, hl⟩
  bv_omega

theorem gotoSignoff_ends : EndsIn true Captured gotoSignoff := by
  intro s t h
  unfold gotoSignoff at h
  split at h
  case isTrue hc =>
    cases h
    simp only [Bool.and_eq_true, decide_eq_true_eq] at hc
    exact .ofIssue fun ⟨ho, hi, hl⟩ => show _ ∧ _ from ⟨ho, hc.1, hc.2, hi, hl⟩
  case isFalse => exact d0Complete_ends _ _ h

theorem onSignoffDrained_ends : EndsIn true Captured onSignoffDrained := by
  intro s t h
  unfold onSignoffDrained at h
  split at h
  · exact (d0Complete_ends _ _ h).after (.of rfl) id
  · exact fail_ends h

/-- A mode has been determined and a session is open. -/
def ModeSet (s : State) : Prop := s.status.isOpen = true ∧ s.status.mode ≠ .probe

theorem captureNext_ends :
    EndsIn true (fun s => ModeSet s ∧ s.idLen ≤ s.work.len ∧ s.work.len ≤ s.bufcap) captureNext := by
  intro s t h
  unfold captureNext at h
  split at h
  case isTrue => exact fail_ends h
  case isFalse hne =>
    cases h
    exact .ofIssue fun ⟨⟨ho, hm⟩, hi, hl⟩ => show _ ∧ _ from ⟨ho, hm, hi, BitVec.lt_of_le_ne hl hne⟩

/-- What D0_CAPTURE relies on (R126). -/
def Capturing (s : State) : Prop := ModeSet s ∧ s.idLen ≤ s.work.len ∧ s.work.len < s.bufcap

/-- A stored byte is counted without wrapping. -/
theorem succ_le_of_lt {a b : BitVec 16} (h : a < b) : a + 1 ≤ b := by bv_omega

theorem lt_succ_of_le {a b c : BitVec 16} (h : a ≤ b) (hb : b < c) : a < b + 1 := by bv_omega

theorem onCapture_ends (a : RxAnswer) : EndsIn true Capturing (onCapture a) := by
  intro s t h
  cases a with
  | byte b =>
    simp only [onCapture] at h
    split at h
    · obtain ⟨s1, h1, h2⟩ := andThen_eq_next.1 h
      obtain ⟨hi, rfl⟩ := storeByte_eq_next.1 h1
      refine (gotoSignoff_ends _ _ h2).after ((Kept.ofWrite hi).trans (.of rfl)) fun ⟨⟨ho, _⟩, hid, hl⟩ => ?_
      exact ⟨ho, lt_succ_of_le hid hl, succ_le_of_lt hl⟩
    · split at h
      · exact fail_ends h
      · obtain ⟨s1, h1, h2⟩ := andThen_eq_next.1 h
        obtain ⟨hi, rfl⟩ := storeByte_eq_next.1 h1
        refine (captureNext_ends _ _ h2).after ((Kept.ofWrite hi).trans (.of rfl)) fun ⟨hm, hid, hl⟩ => ?_
        exact ⟨hm, BitVec.le_of_lt (lt_succ_of_le hid hl), succ_le_of_lt hl⟩
  | empty | error => exact fail_ends h

/-- A mode has been determined from the identification line in the buffer. -/
def Identified (s : State) : Prop := ModeSet s ∧ LineTaken s

theorem gotoCapture_ends : EndsIn true Identified gotoCapture := fun _ _ h =>
  (captureNext_ends _ _ h).after (.of rfl) fun ⟨hm, _, hid, hl⟩ => ⟨hm, BitVec.le_refl _, hid ▸ hl⟩

theorem gotoBaud_ends : EndsIn true Identified gotoBaud := by
  intro s t h
  unfold gotoBaud at h
  split at h
  · split at h
    case isTrue ht => cases h; exact .ofIssue fun ⟨⟨ho, hm⟩, hl⟩ => show _ ∧ _ from ⟨ho, ht, hm, hl⟩
    case isFalse => exact (gotoCapture_ends _ _ h).after (.of rfl) id
  · exact gotoCapture_ends _ _ h

theorem onSwitched_ends (a : ApplyAnswer) : EndsIn true Identified (onSwitched a) := by
  intro s t h
  cases a
  · exact (gotoCapture_ends _ _ h).after (.of rfl) id
  · exact fail_ends h

theorem gotoAck_ends : EndsIn true Identified gotoAck := by
  intro s t h
  unfold gotoAck at h
  split at h
  · cases h; exact .ofIssue fun ⟨⟨ho, hm⟩, hl⟩ => show _ ∧ _ from ⟨ho, hm, hl⟩
  · exact gotoBaud_ends _ _ h

theorem onAckDrained_ends : EndsIn true Identified onAckDrained := by
  intro s t h
  unfold onAckDrained at h
  split at h
  · exact (gotoBaud_ends _ _ h).after (.of rfl) id
  · exact fail_ends h

/-! ### Identification -/

/-- The identification line has been read and is to be parsed (R117, R118). -/
def LineRead (s : State) : Prop := s.status.isOpen = true ∧ LineTaken s

theorem determineMode_ends {m : Mode} (hp : m ≠ .probe) (hd : m ≠ .modeD) : EndsIn true LineRead (determineMode m) := by
  intro s t h
  refine (gotoAck_ends _ _ h).after ?_ fun ⟨ho, hl⟩ => ⟨⟨ho, hp⟩, hl⟩
  exact { Kept.of (d0 := true) (s := s) (t := s) rfl with mode := .inr ⟨rfl, hp, hd⟩ }

theorem protocolMode_ends : EndsIn true LineRead protocolMode := by
  intro s t h
  obtain ⟨o5, d5, h5⟩ := bufRead_eq 5 s
  obtain ⟨o6, d6, h6⟩ := bufRead_eq 6 { s with draws := d5 }
  simp only [protocolMode, h5, h6] at h
  split at h
  · exact fail_ends h
  · split at h
    · split at h
      · exact (fail_ends h).after (.of rfl) id
      · split at h
        · exact (fail_ends h).after (.of rfl) id
        · exact (determineMode_ends (by decide) (by decide) _ t h).after (.of rfl) id
    · exact (determineMode_ends (by decide) (by decide) _ t h).after (.of rfl) id

theorem classifyStep_ends (c4 : Byte) : EndsIn true LineRead (classifyStep c4) := by
  intro s t h
  unfold classifyStep at h
  split at h
  · exact (protocolMode_ends _ t h).after (.of rfl) id
  · exact (determineMode_ends (by decide) (by decide) _ t h).after (.of rfl) id
  · exact (determineMode_ends (by decide) (by decide) _ t h).after (.of rfl) id
  · exact (fail_ends h).after (.of rfl) id

theorem baudIdFetch_ends : EndsIn true LineRead baudIdFetch := by
  intro s t h
  obtain ⟨o, d, hr⟩ := bufRead_eq 4 s
  simp only [baudIdFetch, hr] at h
  split at h
  · exact fail_ends h
  · split at h
    · exact (classifyStep_ends _ _ t h).after (.of rfl) id
    · exact (fail_ends h).after (.of rfl) id

theorem idParse_ends : EndsIn true LineRead idParse := by
  intro s t h
  obtain ⟨o1, d1, h1⟩ := bufRead_eq (s.idLen.toNat - 2) s
  obtain ⟨o2, d2, h2⟩ := bufRead_eq (s.idLen.toNat - 1) { s with draws := d1 }
  simp only [idParse, h1, h2] at h
  split at h
  · exact fail_ends h
  · split at h
    · split at h
      · exact (baudIdFetch_ends _ t h).after (.of rfl) id
      · exact (fail_ends h).after (.of rfl) id
    · exact (fail_ends h).after (.of rfl) id

/-- A line of LEN bytes, at least one, has been captured so far (R117). -/
def LineSoFar (s : State) : Prop := s.status.isOpen = true ∧ 0 < s.work.len ∧ s.work.len ≤ s.bufcap

theorem idLineEnds_ends : EndsIn true LineSoFar idLineEnds := fun _ _ h =>
  (idParse_ends _ _ h).after (.of rfl) fun ⟨ho, h0, hl⟩ => ⟨ho, h0, rfl, hl⟩

theorem idReadNext_ends : EndsIn true LineSoFar idReadNext := by
  intro s t h
  unfold idReadNext at h
  split at h
  case isTrue hlt => cases h; exact .ofIssue fun ⟨ho, h0, _⟩ => show _ ∧ _ from ⟨ho, h0, hlt⟩
  case isFalse => exact idLineEnds_ends _ _ h

theorem onAwaitId_ends (a : RxAnswer) : EndsIn true (fun s => Opened s ∧ 8 ≤ s.bufcap.toNat) (onAwaitId a) := by
  intro s t h
  cases a with
  | byte b =>
    simp only [onAwaitId] at h
    split at h
    · obtain ⟨s1, h1, h2⟩ := andThen_eq_next.1 h
      obtain ⟨hi, rfl⟩ := bufWrite_eq_next.1 h1
      refine (idReadNext_ends _ _ h2).after ((Kept.ofWrite hi).trans (.of rfl)) fun ⟨ho, hc⟩ => ?_
      exact ⟨ho, (by decide : 0#16 < 1#16), Nat.le_trans (by decide : (1#16).toNat ≤ 8) hc⟩
    · exact fail_ends h
  | empty | error => exact fail_ends h

theorem onIdRead_ends (a : RxAnswer) :
    EndsIn true (fun s => Opened s ∧ 0 < s.work.len ∧ s.work.len < s.bufcap) (onIdRead a) := by
  intro s t h
  cases a with
  | byte b =>
    obtain ⟨s1, h1, h2⟩ := andThen_eq_next.1 h
    obtain ⟨hi, rfl⟩ := storeByte_eq_next.1 h1
    have hk : Kept true s { s with buf := s.buf.write s.work.len.toNat b, work := { s.work with len := s.work.len + 1 } } :=
      (Kept.ofWrite hi).trans (.of rfl)
    have hp : Opened s ∧ 0 < s.work.len ∧ s.work.len < s.bufcap → LineSoFar
        { s with buf := s.buf.write s.work.len.toNat b, work := { s.work with len := s.work.len + 1 } } :=
      fun ⟨ho, h0, hl⟩ => ⟨ho, lt_succ_of_le (BitVec.le_of_lt h0) hl, succ_le_of_lt hl⟩
    split at h2
    · exact (idLineEnds_ends _ _ h2).after hk hp
    · exact (idReadNext_ends _ _ h2).after hk hp
  | empty => exact (idLineEnds_ends _ _ h).after (.of rfl) fun ⟨ho, h0, hl⟩ => ⟨ho, h0, BitVec.le_of_lt hl⟩
  | error => exact fail_ends h

/-! ## One move -/

/-- What a handler of a read command relies on: what the invariant says of its control state, and a buffer of at least 8
bytes. -/
def Relied (s : State) : Prop := CtlInv s ∧ 8 ≤ s.bufcap.toNat

/-- Each handler of a read command, run in its control state. -/
theorem Handles.ends {c : Ctl} {k : State → Result} (h : Handles c k) (hc : c.opensOrCloses = false) {s t : State}
    (hs : s.ctl = c) (hk : k s = .next t) : Ends c.runsD0 (Relied s) s t := by
  have control : Relied s → CtlInv { s with ctl := c } := by subst hs; exact And.left
  have kept : Kept c.runsD0 s s := .of rfl
  cases h with
  | frSearch a => exact (onSearch_ends a s t hk).after kept fun hr => ⟨control hr, hr.2⟩
  | frAccum a => exact (onAccum_ends a s t hk).after kept control
  | frTail2 a =>
    refine (onTail2_ends a s t hk).after kept fun hr => ?_
    obtain ⟨ho, hl, he, ht⟩ := control hr
    exact ⟨⟨ho, hl, he⟩, ht⟩
  | frTail4 a =>
    refine (onTail4_ends a s t hk).after kept fun hr => ?_
    obtain ⟨ho, hl, he, ht, -, hcr⟩ := control hr
    exact ⟨⟨ho, hl, he⟩, ht, hcr⟩
  | d0Rebase a => exact (onRebased_ends a s t hk).after kept fun hr => (control hr).1
  | d0Wake a => exact (onWake_ends a s t hk).after kept fun hr => (control hr).1
  | d0WakeDrain => exact (onWakeDrained_ends s t hk).after kept control
  | d0Settle => exact (onSettled_ends s t hk).after kept control
  | d0Signon a | d0Ack a | d0Signoff a => cases hk; exact (Ends.ofIssue id).after (.of rfl) control
  | d0SignonDrain => exact (onSignonDrained_ends s t hk).after kept control
  | d0AwaitId a => exact (onAwaitId_ends a s t hk).after kept fun hr => ⟨control hr, hr.2⟩
  | d0IdRead a => exact (onIdRead_ends a s t hk).after kept control
  | d0IdParse => exact (idParse_ends s t hk).after kept control
  | d0AckDrain =>
    refine (onAckDrained_ends s t hk).after kept fun hr => ?_
    obtain ⟨ho, hm, hl⟩ := control hr
    exact ⟨⟨ho, hm⟩, hl⟩
  | d0Baud a =>
    refine (onSwitched_ends a s t hk).after kept fun hr => ?_
    obtain ⟨ho, -, hm, hl⟩ := control hr
    exact ⟨⟨ho, hm⟩, hl⟩
  | d0Capture a =>
    refine (onCapture_ends a s t hk).after kept fun hr => ?_
    obtain ⟨ho, hm, hl⟩ := control hr
    exact ⟨⟨ho, hm⟩, hl⟩
  | d0SignoffDrain =>
    refine (onSignoffDrained_ends s t hk).after kept fun hr => ?_
    obtain ⟨ho, -, -, hl⟩ := control hr
    exact ⟨ho, hl⟩
  | opAcquire p a | opApplyP1 p a | opApplyD0 a | opRestore | clRestore => cases hc
  | rdToggle a => exact (onToggled_ends a s t hk).after kept fun _ => trivial
  | rdParse a => exact (onParsed_ends a s t hk).after kept control
  | rdDump => exact (onDumped_ends s t hk).after kept fun _ => trivial

/-- A move of a read command. -/
theorem move_ends {s t : State} (hc : s.ctl.opensOrCloses = false) (h : move s = some (.next t)) :
    Ends s.ctl.runsD0 (Relied s) s t := by
  obtain ⟨k, f, hk, hr, -⟩ := move_eq_some h
  exact (hk.ends (s := { s with env := f }) hc rfl hr.symm).after (.of rfl) id

end Sys2Proof.Machine
end

section
/-! The invariant along a step: the commands that open and close, the beginnings of the others, and the run
(10_state.md R31, R42, R43, R46; 43_session.md R139, R140, R146). -/

namespace Sys2Proof.Machine

/-! ## Read commands: their beginning and their run -/

theorem Ctl.within_iff {d0 : Bool} {c : Ctl} :
    c.within d0 = true ↔ c.opensOrCloses = false ∧ (c.runsD0 = true → d0 = true) := by
  unfold Ctl.within
  cases c.opensOrCloses <;> cases c.runsD0 <;> simp

theorem Ends.mono {d0 d1 : Bool} {P : Prop} {s t : State} (h : Ends d0 P s t) (hd : d0 = true → d1 = true) :
    Ends d1 P s t where
  kept := h.kept.mono hd
  within := by
    obtain ⟨ho, hr⟩ := Ctl.within_iff.1 h.within
    exact Ctl.within_iff.2 ⟨ho, hd ∘ hr⟩
  control := h.control

theorem frameEntry_ends {d0 : Bool} (s : State) : Ends d0 (Opened s) s (frameEntry s) :=
  (Ends.ofIssue (P := Searching { s with failcnt := 0, work := { s.work with mf := s.maxfail, len := 0 } }) id).after
    (.of rfl) fun ho => ⟨ho, rfl⟩

theorem d0Entry_ends (s : State) : Ends true (Opened s) s (d0Entry s) := by
  unfold d0Entry
  dsimp only
  split
  · split
    case isTrue ht =>
      exact (Ends.ofIssue (P := Opened s) (s := clearD0Flags s) (c := .d0Rebase) fun ho =>
        show _ ∧ _ from ⟨ho, ht⟩).after (.of rfl) id
    case isFalse => exact (gotoWake_ends _).after (.of rfl) id
  · exact (gotoWake_ends _).after (.of rfl) id

theorem readEntry_ends (s : State) :
    ∃ d0, (d0 = true → s.status.path = .d0) ∧ Ends d0 (Opened s) s (readEntry s) := by
  cases hp : s.status.path with
  | p1 =>
    rw [readEntry_p1 hp]
    exact ⟨false, nofun, (frameEntry_ends _).after (.of rfl) id⟩
  | d0 =>
    rw [readEntry_d0 hp]
    exact ⟨true, fun _ => rfl, (d0Entry_ends _).after (.of rfl) id⟩

/-- A command of an open session that begins as `k`, or fails because none is open. -/
theorem whenOpen_ends {d0 : Bool} {k : State → Result} {s t : State} (h : whenOpen s k = .next t)
    (hk : s.status.isOpen = true → k s = .next t → Ends d0 (Opened s) s t) : Ends d0 True s t := by
  rcases whenOpen_eq_next.1 h with ⟨-, rfl⟩ | ⟨ho, h⟩
  · exact .ofRespond _ _
  · exact (hk ho h).after (.of rfl) fun _ => ho

/-- The beginning of a command other than OPEN and CLOSE: it can reach the D0 engine only as D0_READ, or as READ of a D0
session (43_session.md R141). -/
theorem start_ends {i : Instr} {s t : State} (h : start i s = .next t) (h1 : i ≠ .openP1) (h2 : i ≠ .openD0)
    (h3 : i ≠ .close) : ∃ d0, (d0 = true → RunsD0 i s) ∧ Ends d0 True s t := by
  cases i with
  | regRead reg =>
    obtain ⟨-, rfl⟩ := execRegRead_eq_next.1 h
    exact ⟨false, nofun, .of rfl, rfl, fun _ => trivial⟩
  | regWrite reg value =>
    obtain ⟨-, w, c, v, m, d, rfl⟩ := execRegWrite_eq_next h
    exact ⟨false, nofun, (Ends.ofRespond w _).after (.of rfl) id⟩
  | bufRead offset =>
    obtain ⟨-, v, d, rfl⟩ := execBufRead_eq_next h
    exact ⟨false, nofun, (Ends.ofRespond v _).after (.of rfl) id⟩
  | crcCompute n =>
    refine ⟨false, nofun, ?_⟩
    obtain ⟨-, rfl | ⟨-, v, st, c, d, rfl⟩⟩ := execCrcCompute_eq_next h
    · exact .ofRespond _ _
    · exact (Ends.ofRespond v _).after (.of rfl) id
  | frameRead =>
    simp only [start] at h
    refine ⟨false, nofun, whenOpen_ends (whenIdle_eq_next.1 h).2 fun _ hk => ?_⟩
    cases hk
    exact (frameEntry_ends _).after (.of rfl) id
  | d0Read =>
    simp only [start] at h
    refine ⟨true, fun _ => .inl rfl, whenOpen_ends (whenIdle_eq_next.1 h).2 fun _ hk => ?_⟩
    cases hk
    exact (d0Entry_ends _).after (.of rfl) id
  | read =>
    simp only [start] at h
    obtain ⟨d0, hp, he⟩ := readEntry_ends s
    exact ⟨d0, fun hd => .inr ⟨rfl, hp hd⟩,
      whenOpen_ends (whenIdle_eq_next.1 h).2 fun _ hk => by cases hk; exact he⟩
  | openP1 => exact absurd rfl h1
  | openD0 => exact absurd rfl h2
  | close => exact absurd rfl h3

/-- Running on within a read command keeps what a move keeps. -/
theorem advance_kept {d0 : Bool} {s t : State} (hw : s.ctl.within d0 = true) (h : advance s = .next t) : Kept d0 s t := by
  refine (advance_keeps (P := fun u => Kept d0 s u ∧ u.ctl.within d0 = true) ?_ ⟨.of rfl, hw⟩ h).1
  rintro u v ⟨hk, hu⟩ hm
  obtain ⟨ho, hr⟩ := Ctl.within_iff.1 hu
  have he := (move_ends ho hm).mono hr
  exact ⟨hk.trans he.kept, he.within⟩

/-- What a command other than OPEN and CLOSE keeps. -/
theorem exec_kept {i : Instr} {s t : State} (h : exec i s = .next t) (h1 : i ≠ .openP1) (h2 : i ≠ .openD0)
    (h3 : i ≠ .close) : ∃ d0, (d0 = true → RunsD0 i s) ∧ Kept d0 s t := by
  obtain ⟨u, hu, ha⟩ := exec_eq_next.1 h
  obtain ⟨d0, hd, he⟩ := start_ends hu h1 h2 h3
  exact ⟨d0, hd, he.kept.trans (advance_kept he.within ha)⟩

/-- What a step keeps that goes on with such a command. -/
theorem step_kept {s t : State} (h : step s = .next t) (hi : s.ctl ≠ .idle) (hc : s.ctl.opensOrCloses = false) :
    Kept s.ctl.runsD0 s t :=
  advance_kept (Ctl.within_iff.2 ⟨hc, id⟩) (step_running hi ▸ h)

/-! ## OPEN and CLOSE -/

/-- What the invariant speaks of besides the control state. -/
def invFields (s : State) : Bool × Path × Bool × Mode × TransportConfig × BitVec 16 × Bool × Memory :=
  (s.status.isOpen, s.status.path, s.status.term, s.status.mode, s.config, s.bufcap, s.dumpS, s.buf)

theorem StateInv.of {s t : State} (h : StateInv s) (e : invFields t = invFields s) (hc : CtlInv t) : StateInv t := by
  simp only [invFields, Prod.mk.injEq] at e
  obtain ⟨ho, hp, ht, hm, hcfg, hcap, hd, hb⟩ := e
  exact ⟨hb ▸ h.bufCanonical, by rw [hb, hcap]; exact h.bufBounded, hm ▸ h.modeLegal, hcfg ▸ h.stopBit,
    by rw [ho, hcap]; exact h.openCapacity, by rw [ho, hcap, hb, hd, hcfg, hp, ht, hm]; exact h.closedClear, hc⟩

/-- What a command keeps that opens or closes a session: it runs to its end or goes on opening or closing, MODE stays or
becomes Probe (10_state.md R43), and, from a state in which `P` holds, it leaves the invariant. -/
structure Session (P : Prop) (s t : State) : Prop where
  ctl : t.ctl = .idle ∨ t.ctl.opensOrCloses = true
  mode : t.status.mode = s.status.mode ∨ t.status.mode = .probe
  inv : P → StateInv t

theorem Session.ofIssue {P : Prop} {s : State} {r : Request} {c : Ctl} (hs : P → StateInv s)
    (h : P → CtlInv (issue r c s)) (hc : c.opensOrCloses = true := by rfl) : Session P s (issue r c s) :=
  ⟨.inr hc, .inl rfl, fun hp => (hs hp).of rfl (h hp)⟩

theorem Session.ofRespond {P : Prop} {s : State} (v : Word) (hs : P → StateInv s) : Session P s (respond v s) :=
  ⟨.inl rfl, .inl rfl, fun hp => (hs hp).of rfl trivial⟩

/-- A session opens with a buffer of CAPACITY cells, none written, and MODE Probe (10_state.md R47). -/
theorem opened_session {P : Prop} {term : Bool} {p : Path} {s t : State} (hc : P → 8 ≤ s.capacity.toNat)
    (h : opened term p s = .next t) : Session P s t := by
  cases h
  exact ⟨.inl rfl, .inr rfl, fun hp =>
    { bufCanonical := List.Pairwise.nil
      bufBounded := nofun
      modeLegal := nofun
      stopBit := by cases p <;> rfl
      openCapacity := fun _ => hc hp
      closedClear := nofun
      control := trivial }⟩

/-- A closed session holds nothing (43_session.md R146). -/
theorem closed_session {P : Prop} {s t : State} (h : closed s = .next t) : Session P s t := by
  cases h
  exact ⟨.inl rfl, .inr rfl, fun _ =>
    { bufCanonical := List.Pairwise.nil
      bufBounded := nofun
      modeLegal := nofun
      stopBit := rfl
      openCapacity := nofun
      closedClear := fun _ => ⟨rfl, rfl, rfl, rfl, rfl, rfl, rfl⟩
      control := trivial }⟩

/-- An OPEN in progress: no session is open and CAPACITY is enough for one. -/
def Opening (s : State) : Prop := StateInv s ∧ s.status.isOpen = false ∧ 8 ≤ s.capacity.toNat

theorem openEntry_session {p : Path} {s t : State} (h : openEntry p s = .next t) : Session (StateInv s) s t := by
  unfold openEntry at h
  split at h
  case isTrue => cases h; exact .ofRespond _ id
  case isFalse ho =>
    split at h
    case isTrue => cases h; exact .ofRespond _ id
    case isFalse hc =>
      cases h
      exact .ofIssue id fun _ => show _ ∧ _ from ⟨Bool.eq_false_iff.2 ho, Nat.le_of_not_lt hc⟩

theorem onAcquired_session {p : Path} {a : AcquireAnswer} {s t : State} (h : onAcquired p a s = .next t) :
    Session (Opening s) s t := by
  match a with
  | .fail => cases h; exact .ofRespond _ And.left
  | .ok true => cases h; exact .ofIssue And.left And.right
  | .ok false => exact opened_session (fun hp => hp.2.2) h

theorem openFailed_session {s t : State} (h : openFailed s = .next t) : Session (Opening s) s t := by
  cases h; exact .ofIssue And.left fun hp => hp.2.1

theorem onAppliedP1_session {p : Path} {a : ApplyAnswer} {s t : State} (h : onAppliedP1 p a s = .next t) :
    Session (Opening s) s t := by
  match a, p with
  | .fail, _ => exact openFailed_session h
  | .ok, .p1 => exact opened_session (fun hp => hp.2.2) h
  | .ok, .d0 => cases h; exact .ofIssue And.left And.right

theorem onAppliedD0_session {a : ApplyAnswer} {s t : State} (h : onAppliedD0 a s = .next t) :
    Session (Opening s) s t := by
  cases a
  · exact opened_session (fun hp => hp.2.2) h
  · exact openFailed_session h

theorem closeEntry_session {s t : State} (ho : s.status.isOpen = true) (h : closeEntry s = .next t) :
    Session (StateInv s) s t := by
  unfold closeEntry at h
  split at h
  case isTrue ht => cases h; exact .ofIssue id fun _ => show _ ∧ _ from ⟨ho, ht⟩
  case isFalse => exact closed_session h

/-- The beginning of OPEN_P1, OPEN_D0 and CLOSE. -/
theorem start_session {i : Instr} {s t : State} (hi : i = .openP1 ∨ i = .openD0 ∨ i = .close)
    (h : start i s = .next t) : Session (StateInv s) s t := by
  rcases hi with rfl | rfl | rfl
  · exact openEntry_session (whenIdle_eq_next.1 h).2
  · exact openEntry_session (whenIdle_eq_next.1 h).2
  · simp only [start] at h
    rcases whenOpen_eq_next.1 (whenIdle_eq_next.1 h).2 with ⟨-, rfl⟩ | ⟨ho, h⟩
    · exact .ofRespond _ id
    · exact closeEntry_session ho h

/-- Each handler of OPEN and CLOSE, run in its control state. -/
theorem Handles.session {c : Ctl} {k : State → Result} (h : Handles c k) (hc : c.opensOrCloses = true) {s t : State}
    (hs : s.ctl = c) (hk : k s = .next t) : Session (StateInv s) s t := by
  have control : StateInv s → CtlInv { s with ctl := c } := by subst hs; exact StateInv.control
  have weaken : ∀ {P : Prop}, Session P s t → (StateInv s → P) → Session (StateInv s) s t :=
    fun hP himp => ⟨hP.ctl, hP.mode, hP.inv ∘ himp⟩
  cases h with
  | opAcquire p a => exact weaken (onAcquired_session hk) fun hi => ⟨hi, control hi⟩
  | opApplyP1 p a => exact weaken (onAppliedP1_session hk) fun hi => ⟨hi, control hi⟩
  | opApplyD0 a => exact weaken (onAppliedD0_session hk) fun hi => ⟨hi, control hi⟩
  | opRestore => cases hk; exact .ofRespond _ id
  | clRestore => exact closed_session hk
  | _ => cases hc

/-- A move of OPEN or CLOSE. -/
theorem move_session {s t : State} (hc : s.ctl.opensOrCloses = true) (h : move s = some (.next t)) :
    Session (StateInv s) s t := by
  obtain ⟨k, f, hk, hr, -⟩ := move_eq_some h
  have hs := hk.session (s := { s with env := f }) hc rfl hr.symm
  exact ⟨hs.ctl, hs.mode, fun hi => hs.inv (hi.of rfl hi.control)⟩

/-- An OPEN or a CLOSE runs on to no other control state, and changes MODE to Probe at most. -/
theorem advance_session {s t : State} (hc : s.ctl = .idle ∨ s.ctl.opensOrCloses = true) (h : advance s = .next t) :
    t.status.mode = s.status.mode ∨ t.status.mode = .probe := by
  refine (advance_keeps (P := fun u => (u.ctl = .idle ∨ u.ctl.opensOrCloses = true) ∧
    (u.status.mode = s.status.mode ∨ u.status.mode = .probe)) ?_ ⟨hc, .inl rfl⟩ h).2
  rintro u v ⟨hu | hu, hm⟩ hmv
  · rw [move_idle hu] at hmv; cases hmv
  · have hv := move_session hu hmv
    exact ⟨hv.ctl, hv.mode.elim (fun e => by rw [e]; exact hm) .inr⟩

/-! ## The invariant -/

/-- A read command runs in an open session. -/
theorem CtlInv.isOpen {s : State} (h : CtlInv s) (hi : s.ctl ≠ .idle) (hc : s.ctl.opensOrCloses = false) :
    s.status.isOpen = true := by
  cases hs : s.ctl <;> simp only [CtlInv, hs] at h
  case idle => exact absurd hs hi
  case opAcquire | opApplyP1 | opApplyD0 | opRestore | clRestore => rw [hs] at hc; cases hc
  case d0WakeDrain | d0Settle | d0Signon | d0SignonDrain | d0AwaitId => exact h
  all_goals exact h.1

/-- What a read command keeps carries the invariant over. -/
theorem StateInv.ofKept {d0 : Bool} {s t : State} (h : StateInv s) (ho : s.status.isOpen = true) (k : Kept d0 s t)
    (hc : CtlInv t) : StateInv t where
  bufCanonical := k.canonical h.bufCanonical
  bufBounded := k.bounded h.bufBounded
  modeLegal := k.mode.elim (fun e => e ▸ h.modeLegal) fun m => m.2.2
  stopBit := k.stopb.trans h.stopBit
  openCapacity := fun _ => by rw [k.bufcap]; exact h.openCapacity ho
  closedClear := fun hf => by rw [k.isOpen, ho] at hf; cases hf
  control := hc

/-- Every move keeps the invariant. -/
theorem move_inv {s t : State} (hs : StateInv s) (h : move s = some (.next t)) : StateInv t := by
  by_cases hi : s.ctl = .idle
  · rw [move_idle hi] at h; cases h
  cases hc : s.ctl.opensOrCloses with
  | true => exact (move_session hc h).inv hs
  | false =>
    have ho := hs.control.isOpen hi hc
    have he := move_ends hc h
    exact hs.ofKept ho he.kept (he.control ⟨hs.control, hs.openCapacity ho⟩)

/-- In a closed session a command other than OPEN and CLOSE ends at once and touches nothing the invariant speaks of
(60_exceptions.md R155). -/
theorem start_closed {i : Instr} {s t : State} (h : start i s = .next t) (ho : s.status.isOpen = false)
    (h1 : i ≠ .openP1) (h2 : i ≠ .openD0) : invFields t = invFields s ∧ t.ctl = .idle := by
  have closed : ∀ {k : State → Result}, (whenIdle s fun s => whenOpen s k) = .next t →
      invFields t = invFields s ∧ t.ctl = .idle := by
    intro k h
    rcases whenOpen_eq_next.1 (whenIdle_eq_next.1 h).2 with ⟨-, rfl⟩ | ⟨hf, -⟩
    · exact ⟨rfl, rfl⟩
    · rw [ho] at hf; cases hf
  cases i with
  | regRead reg =>
    obtain ⟨-, rfl⟩ := execRegRead_eq_next.1 h
    exact ⟨rfl, rfl⟩
  | regWrite reg value =>
    obtain ⟨-, w, c, v, m, d, rfl⟩ := execRegWrite_eq_next h
    exact ⟨rfl, rfl⟩
  | openP1 => exact absurd rfl h1
  | openD0 => exact absurd rfl h2
  | bufRead | crcCompute | frameRead | d0Read | read | close => exact closed h

/-- The beginning of every command keeps the invariant. -/
theorem start_inv {i : Instr} {s t : State} (hs : StateInv s) (h : start i s = .next t) : StateInv t := by
  by_cases hi : i = .openP1 ∨ i = .openD0 ∨ i = .close
  · exact (start_session hi h).inv hs
  simp only [not_or] at hi
  obtain ⟨h1, h2, h3⟩ := hi
  cases ho : s.status.isOpen with
  | true =>
    obtain ⟨d0, -, he⟩ := start_ends h h1 h2 h3
    exact hs.ofKept ho he.kept (he.control trivial)
  | false =>
    obtain ⟨hf, hc⟩ := start_closed h ho h1 h2
    exact hs.of hf (by simp only [CtlInv, hc])

/-- A run keeps the invariant, since every move does. -/
theorem advance_inv {s t : State} (hs : StateInv s) (h : advance s = .next t) : StateInv t :=
  advance_keeps (P := StateInv) (fun _ _ => move_inv) hs h

theorem exec_inv {i : Instr} {s t : State} (hs : StateInv s) (h : exec i s = .next t) : StateInv t := by
  obtain ⟨u, hu, ha⟩ := exec_eq_next.1 h
  exact advance_inv (start_inv hs hu) ha

end Sys2Proof.Machine
end

section
/-! The statements about the invariant and about what commands keep. -/

namespace Sys2Proof.Proofs

open Sys2Proof.Machine

/-- Settles O48: the word taken leaves the invariant alone, a command's beginning keeps it (`start_inv`), and so does
every move of the run (`move_inv`). -/
theorem stepKeepsInvariant : Obligations.StepKeepsInvariant := by
  intro s t hs h
  by_cases hi : s.ctl = .idle
  · unfold step at h
    rw [hi] at h
    dsimp only at h
    unfold takeCommand at h
    split at h
    next => cases h; exact hs
    next w s1 hw =>
      have h1 : StateInv s1 := by
        split at hw <;> cases hw
        exact hs.of rfl hs.control
      split at h
      · exact exec_inv h1 h
      · cases h; exact h1.of rfl trivial
  · exact advance_inv hs (step_running hi ▸ h)

/-- Settles O53: no handler of a read command writes a latch, and the other commands end at once without one. -/
theorem onlyOpenAndCloseWriteLatches : Obligations.OnlyOpenAndCloseWriteLatches := by
  refine ⟨fun i s t h h1 h2 h3 => ?_, fun s t h hi hc => ?_⟩
  · obtain ⟨d0, -, k⟩ := exec_kept h h1 h2 h3
    exact ⟨k.isOpen, k.path, k.term, k.bufcap, k.dumpS⟩
  · have k := step_kept h hi hc
    exact ⟨k.isOpen, k.path, k.term, k.bufcap, k.dumpS⟩

/-- Settles O54: OPEN and CLOSE write Probe, the D0 engine the four modes it negotiates, and nothing else writes MODE. -/
theorem onlyNegotiationSetsAMode : Obligations.OnlyNegotiationSetsAMode := by
  refine ⟨fun i s t h hne => ?_, fun s t h hi hne => ?_⟩
  · by_cases ho : i = .openP1 ∨ i = .openD0 ∨ i = .close
    · obtain ⟨u, hu, ha⟩ := exec_eq_next.1 h
      have hs := start_session ho hu
      have hm := advance_session hs.ctl ha
      refine .inl ⟨ho, hm.elim (fun e => ?_) id⟩
      exact e.trans (hs.mode.resolve_left fun e' => hne (e.trans e'))
    · have hn := ho
      simp only [not_or] at hn
      obtain ⟨d0, hd, k⟩ := exec_kept h hn.1 hn.2.1 hn.2.2
      obtain ⟨hd0, hp, hdm⟩ := k.mode.resolve_left hne
      exact .inr ⟨hd hd0, hp, hdm⟩
  · cases hc : s.ctl.opensOrCloses with
    | true =>
      exact .inl ⟨rfl, (advance_session (.inr hc) (step_running hi ▸ h)).resolve_left hne⟩
    | false => exact .inr ((step_kept h hi hc).mode.resolve_left hne)

end Sys2Proof.Proofs
end

section
/-! The register words, an opened session, and the short statements about the whole machine. -/

namespace Sys2Proof.Machine

/-- A field in front of a word of `n` bits. -/
theorem toNat_append_field {m n : Nat} (x : BitVec m) (y : BitVec n) : (x ++ y).toNat = x.toNat * 2 ^ n + y.toNat := by
  rw [BitVec.toNat_append, ← Nat.shiftLeft_add_eq_or_of_lt y.isLt, Nat.shiftLeft_eq]

/-- STATUS as the sum of its fields at their places (10_state.md R22). -/
theorem Status.word_toNat (f : Status) : f.word.toNat =
    (bit f.isOpen).toNat + f.path.code.toNat * 2 + (bit f.term).toNat * 4 + 8 * f.mode.code.toNat +
      64 * f.style.code.toNat + (bit f.crcMismatch).toNat * 256 + (bit f.crcPresent).toNat * 512 +
      1024 * (parseStatusCode f.parseStatus).toNat + (bit f.parseOk).toNat * 4096 + (bit f.ackSent).toNat * 8192 +
      (bit f.signoffSent).toNat * 16384 + (bit f.dumped).toNat * 32768 := by
  have h0 : (0 : BitVec 16).toNat = 0 := rfl
  simp only [Status.word, toNat_append_field, h0]
  omega

/-- CONFIG as the sum of its fields at their places (R23). -/
theorem TransportConfig.word_toNat (c : TransportConfig) : c.word.toNat =
    c.baud.code.toNat + c.csize.code.toNat * 16 + c.parity.code.toNat * 32 + (bit c.clocal).toNat * 128 +
      (bit c.raw).toNat * 256 + (bit c.stopb).toNat * 512 + 65536 * c.vtime.toNat := by
  have h8 : (0 : BitVec 8).toNat = 0 := rfl
  have h6 : (0 : BitVec 6).toNat = 0 := rfl
  simp only [TransportConfig.word, toNat_append_field, h8, h6]
  omega

theorem bit_toNat_mul (b : Bool) (k : Nat) : (bit b).toNat * k = if b then k else 0 := by
  cases b <;> simp

/-- What no move writes: the host registers, the parameters and the host's words to come. -/
structure HostFrame (s t : State) : Prop where
  capacity : t.capacity = s.capacity
  vtime : t.vtime = s.vtime
  maxfail : t.maxfail = s.maxfail
  dumpEn : t.dumpEn = s.dumpEn
  params : t.params = s.params
  host : t.env.host = s.env.host

theorem move_hostFrame {s t : State} (h : move s = some (.next t)) : HostFrame s t := by
  obtain ⟨u, hu, ht⟩ := move_consumes h
  have hr := hu.rest
  have same : ∀ {α : Type} (f : State → α), (∀ e, f { s with env := e } = f s) → f u = f s :=
    fun f hf => (congrArg f hr).trans (hf _)
  exact ⟨ht.capacity.trans (same _ fun _ => rfl), ht.vtime.trans (same _ fun _ => rfl),
    ht.maxfail.trans (same _ fun _ => rfl), ht.dumpEn.trans (same _ fun _ => rfl),
    ht.params.trans (same _ fun _ => rfl), (congrArg Env.host ht.env).trans hu.host⟩

theorem advance_hostFrame {s t : State} (h : advance s = .next t) : HostFrame s t :=
  advance_induction (motive := HostFrame) (fun _ _ => ⟨rfl, rfl, rfl, rfl, rfl, rfl⟩)
    (fun s u t hm ih => by
      have k := move_hostFrame hm
      exact ⟨ih.capacity.trans k.capacity, ih.vtime.trans k.vtime, ih.maxfail.trans k.maxfail,
        ih.dumpEn.trans k.dumpEn, ih.params.trans k.params, ih.host.trans k.host⟩) h

/-- With no session open and CAPACITY enough, an OPEN goes on to `Acquire` (43_session.md R139). -/
theorem openEntry_free {p : Path} {s : State} (ho : s.status.isOpen = false) (hc : 8 ≤ s.capacity.toNat) :
    openEntry p s = .next (issue .acquire (.opAcquire p) s) := by
  rw [openEntry, if_neg (Bool.eq_false_iff.1 ho), if_neg (Nat.not_lt.2 hc : ¬ s.capacity.toNat < Config.minCapacity)]

theorem advance_opAcquire {r : Request} {p : Path} {s : State} {a : AcquireAnswer} {as : List AcquireAnswer}
    (h : s.env.acquire = a :: as) : advance (issue r (.opAcquire p) s) =
      andThen (onAcquired p a { issue r (.opAcquire p) s with env := { s.env with acquire := as } }) advance :=
  advance_move (onAcquire_eq_some.2 ⟨a, as, h, rfl⟩)

theorem advance_opApplyP1 {r : Request} {p : Path} {s : State} {a : ApplyAnswer} {as : List ApplyAnswer}
    (h : s.env.apply = a :: as) : advance (issue r (.opApplyP1 p) s) =
      andThen (onAppliedP1 p a { issue r (.opApplyP1 p) s with env := { s.env with apply := as } }) advance :=
  advance_move (onApply_eq_some.2 ⟨a, as, h, rfl⟩)

theorem advance_opApplyD0 {r : Request} {s : State} {a : ApplyAnswer} {as : List ApplyAnswer}
    (h : s.env.apply = a :: as) : advance (issue r .opApplyD0 s) =
      andThen (onAppliedD0 a { issue r .opApplyD0 s with env := { s.env with apply := as } }) advance :=
  advance_move (onApply_eq_some.2 ⟨a, as, h, rfl⟩)

/-- Opening is the end of the command. -/
theorem opened_advance (term : Bool) (p : Path) (s : State) : andThen (opened term p s) advance = opened term p s :=
  andThen_advance_ended fun t h => by cases h; rfl

end Sys2Proof.Machine

namespace Sys2Proof.Proofs

open Sys2Proof.Machine

/-- Settles O12: the word is the sum of its fields at their places (`Status.word_toNat`), and each code is that of R22. -/
theorem statusLayout : Obligations.StatusLayout := by
  intro f
  rw [f.word_toNat]
  repeat' apply congrArg₂ HAdd.hAdd
  · cases f.isOpen <;> rfl
  · cases f.path <;> rfl
  · exact bit_toNat_mul _ _
  · cases f.mode <;> rfl
  · cases f.style <;> rfl
  · exact bit_toNat_mul _ _
  · exact bit_toNat_mul _ _
  · match f.parseStatus with
    | none | some .incomplete | some .accepted | some .rejected => rfl
  all_goals exact bit_toNat_mul _ _

/-- Settles O13, as O12. -/
theorem configLayout : Obligations.ConfigLayout := by
  intro c
  rw [c.word_toNat]
  repeat' apply congrArg₂ HAdd.hAdd
  · cases c.baud <;> rfl
  · cases c.csize <;> rfl
  · cases c.parity <;> rfl
  · exact bit_toNat_mul _ _
  · exact bit_toNat_mul _ _
  · exact bit_toNat_mul _ _
  · rfl

/-! ## An opened session -/

/-- Settles O40: `Acquire`, then no `Apply`, one or two, as the transport and the command have it (43_session.md R139,
R140), and then `opened`. -/
theorem openStartsASession : Obligations.OpenStartsASession := by
  intro p term s acquires applies hi ho hc ha hp
  have hx : exec (if p = .d0 then .openD0 else .openP1) s =
      andThen (onAcquired p (.ok term) { issue .acquire (.opAcquire p) s with
        env := { s.env with acquire := acquires } }) advance :=
    calc exec (if p = .d0 then .openD0 else .openP1) s
        = whenIdle s fun s => andThen (openEntry p s) advance := by cases p <;> rfl
      _ = andThen (openEntry p s) advance := whenIdle_idle hi _
      _ = advance (issue .acquire (.opAcquire p) s) := by rw [openEntry_free ho hc, andThen_next]
      _ = _ := advance_opAcquire ha
  rw [hx]
  cases term with
  | false =>
    refine (opened_advance _ _ _).trans ?_
    cases p <;> simp [opened, openCommon, baseline, respond, answer, issue, hi, hp, p1Baseline, d0Baseline]
  | true =>
    simp only [onAcquired, andThen_next]
    cases p with
    | p1 =>
      rw [advance_opApplyP1 (a := .ok) (as := applies)]
      · refine (opened_advance _ _ _).trans ?_
        simp [opened, openCommon, baseline, respond, answer, issue, hi, p1Baseline]
      · exact hp
    | d0 =>
      rw [advance_opApplyP1 (a := .ok) (as := .ok :: applies)]
      · simp only [onAppliedP1, andThen_next]
        rw [advance_opApplyD0 (a := .ok) (as := applies)]
        · refine (opened_advance _ _ _).trans ?_
          simp [opened, openCommon, baseline, respond, answer, issue, hi, p1Baseline, d0Baseline]
        · rfl
      · exact hp

/-! ## What commands keep -/

/-- Settles O52: a command's beginning keeps the host registers unless it is REG_WRITE (`start_keeps`), and no move writes
one (`Turn`). -/
theorem onlyRegWriteChangesHostRegisters : Obligations.OnlyRegWriteChangesHostRegisters := by
  intro i s t h
  obtain ⟨u, hu, ha⟩ := exec_eq_next.1 h
  obtain ⟨hp, he, hr⟩ := start_keeps hu
  have hk : HostFrame u t := advance_hostFrame ha
  refine ⟨hk.params.trans hp, hk.host.trans (congrArg Env.host he), fun hne => ?_⟩
  obtain ⟨hcap, hv, hm, hd⟩ := hr hne
  exact ⟨hk.capacity.trans hcap, hk.vtime.trans hv, hk.maxfail.trans hm, hk.dumpEn.trans hd⟩

/-- Settles O55: these commands end at once, and what they leave differs from `s` in other registers. -/
theorem onlyReadsWriteTheBuffer : Obligations.OnlyReadsWriteTheBuffer := by
  intro i s t h h1 h2 h3 h4 h5 h6 a
  suffices hb : t.buf = s.buf by rw [hb]
  cases i with
  | regRead reg =>
    obtain ⟨-, rfl⟩ := execRegRead_eq_next.1 h
    rfl
  | regWrite reg value =>
    obtain ⟨-, w, c, v, m, d, rfl⟩ := execRegWrite_eq_next h
    rfl
  | bufRead offset =>
    obtain ⟨-, v, d, rfl⟩ := execBufRead_eq_next h
    rfl
  | crcCompute n =>
    obtain ⟨-, rfl | ⟨-, v, st, c, d, rfl⟩⟩ := execCrcCompute_eq_next h <;> rfl
  | frameRead => exact absurd rfl h1
  | d0Read => exact absurd rfl h2
  | read => exact absurd rfl h3
  | openP1 => exact absurd rfl h4
  | openD0 => exact absurd rfl h5
  | close => exact absurd rfl h6

/-! ## Waiting, and reset -/

/-- Settles O7: every arm of `exec` tests that the block is idle first. -/
theorem busyBlockTakesNoCommand : Obligations.BusyBlockTakesNoCommand := by
  intro i s hi
  cases i <;>
    simp only [exec, execRegRead, execRegWrite, execBufRead, execCrcCompute, execFrameRead, execD0Read, execOpenP1,
      execOpenD0, execRead, execClose, whenIdle_busy hi]

/-- Settles O8: without its answer the block cannot move (`move_isSome`), so the step leaves it as it is. -/
theorem unansweredRequestWaits : Obligations.UnansweredRequestWaits := by
  intro s r ho ha
  have hm : move s = none := Option.isSome_eq_false_iff.1 ((move_isSome ho).trans ha) |> Option.isNone_iff_eq_none.1
  rw [step_running (ctl_ne_idle_of_outstanding ho), advance_wait hm]

/-- Settles O46. -/
theorem resetClearsEveryRegister : Obligations.ResetClearsEveryRegister := by
  refine ⟨?_, rfl, rfl, rfl, rfl, rfl⟩
  have hz : registerFile State.reset = List.replicate 14 0 := by decide
  rw [hz]
  exact fun w hw => List.eq_of_mem_replicate hw

/-- Settles O47: no session is open after reset, and nothing is held. -/
theorem resetSatisfiesInvariant : Obligations.ResetSatisfiesInvariant where
  bufCanonical := List.Pairwise.nil
  bufBounded := nofun
  modeLegal := nofun
  stopBit := rfl
  openCapacity := nofun
  closedClear := fun _ => ⟨rfl, rfl, rfl, rfl, rfl, rfl, rfl⟩
  control := trivial

end Sys2Proof.Proofs
end

section
/-! What can stop the block: a handler issues a BufWrite only at an offset that the invariant puts below BUFCAP
(20_memory.md R56), so from the invariant every handler, every run and every command answers a next state. -/

namespace Sys2Proof.Machine

/-- `r` is a next state, neither a fault nor a refusal. -/
def Answers (r : Result) : Prop := ∃ t, r = .next t

theorem answers_next (t : State) : Answers (.next t) := ⟨t, rfl⟩

theorem Answers.ite {p : Prop} [Decidable p] {a b : Result} (ha : p → Answers a) (hb : ¬ p → Answers b) :
    Answers (if p then a else b) := by
  split
  case isTrue h => exact ha h
  case isFalse h => exact hb h

theorem Answers.andThen {r : Result} {k : State → Result} (hr : Answers r) (hk : ∀ t, r = .next t → Answers (k t)) :
    Answers (andThen r k) := by
  obtain ⟨t, rfl⟩ := hr
  exact hk t rfl

theorem fail_answers (e : ErrCode) (s : State) : Answers (fail e s) := ⟨_, rfl⟩

theorem succeed_answers (v : Nat) (s : State) : Answers (succeed v s) := ⟨_, rfl⟩

theorem whenOpen_answers {s : State} {k : State → Result} (hk : Answers (k s)) : Answers (whenOpen s k) :=
  .ite (fun _ => hk) fun _ => fail_answers _ _

/-! ## The BufWrites -/

theorem bufWrite_answers {i : Nat} {b : Byte} {s : State} (h : i < s.bufcap.toNat) : Answers (bufWrite i b s) :=
  ⟨_, bufWrite_inRange h⟩

theorem bufWriteAll_answers {i : Nat} {l : List Byte} {s : State} (h : i + l.length ≤ s.bufcap.toNat) :
    Answers (bufWriteAll i l s) :=
  ⟨_, bufWriteAll_eq_next.2 ⟨.inr h, rfl⟩⟩

theorem storeByte_answers {b : Byte} {s : State} (h : s.work.len < s.bufcap) : Answers (storeByte b s) :=
  ⟨_, storeByte_eq_next.2 ⟨h, rfl⟩⟩

/-! ## READ -/

theorem dumpStep_answers (e : Nat) (s : State) : Answers (dumpStep e s) :=
  .ite (fun _ => answers_next _) fun _ => succeed_answers _ _

theorem onParsed_answers (o : ParseAnswer) (s : State) : Answers (onParsed o s) := by
  unfold onParsed
  dsimp only
  split
  · exact dumpStep_answers _ _
  · exact dumpStep_answers _ _

theorem parseStep_answers (i n : Nat) (s : State) : Answers (parseStep i n s) := ⟨_, rfl⟩

theorem toggleStep_answers (s : State) : Answers (toggleStep s) :=
  .ite (fun _ => answers_next _) fun _ => succeed_answers _ _

theorem onToggled_answers (a : ApplyAnswer) (s : State) : Answers (onToggled a s) := by
  cases a
  · exact succeed_answers _ _
  · exact fail_answers _ _

theorem frameFound_answers (v : BitVec 16) (s : State) : Answers (frameFound v s) :=
  .ite (fun _ => parseStep_answers _ _ _) fun _ => succeed_answers _ _

theorem frameNone_answers (s : State) : Answers (frameNone s) :=
  .ite (fun _ => toggleStep_answers _) fun _ => succeed_answers _ _

theorem d0Found_answers (v : BitVec 16) (s : State) : Answers (d0Found v s) :=
  .ite (fun _ => parseStep_answers _ _ _) fun _ => succeed_answers _ _

/-! ## The framer -/

theorem chargeThenSearch_answers (k : Nat) (s : State) : Answers (chargeThenSearch k s) :=
  .ite (fun _ => frameNone_answers _) fun _ => answers_next _

theorem onSearch_answers (a : RxAnswer) {s : State} (h : 0 < s.bufcap.toNat) : Answers (onSearch a s) := by
  cases a with
  | byte b =>
    refine .ite (fun _ => (bufWrite_answers h).andThen fun _ _ => answers_next _) fun _ => ?_
    exact .ite (fun _ => chargeThenSearch_answers _ _) fun _ => answers_next _
  | empty | error => exact frameNone_answers _

theorem afterStore_answers (b : Byte) (s : State) : Answers (afterStore b s) :=
  .ite (fun _ => answers_next _) fun _ => .ite (fun _ => chargeThenSearch_answers _ _) fun _ => answers_next _

theorem onAccum_answers (a : RxAnswer) {s : State} (h : s.work.len < s.bufcap) : Answers (onAccum a s) := by
  cases a with
  | byte b => exact (bufWrite_answers h).andThen fun _ _ => afterStore_answers _ _
  | empty | error => exact frameNone_answers _

theorem invalidCandidate_answers (s : State) : Answers (invalidCandidate s) := chargeThenSearch_answers _ _

theorem acceptTail_answers {l : List Byte} {s : State} (h : s.work.len.toNat + l.length ≤ s.bufcap.toNat) :
    Answers (acceptTail l s) :=
  (bufWriteAll_answers h).andThen fun _ _ => frameFound_answers _ _

/-- The tail is stored only when it fits (41_framer.md R100). -/
theorem legacyCheck_answers (s : State) : Answers (legacyCheck s) := by
  unfold legacyCheck
  split
  · exact .ite (fun h => acceptTail_answers h) fun _ => invalidCandidate_answers _
  · exact invalidCandidate_answers _

theorem onTail2_answers (a : RxAnswer) (s : State) : Answers (onTail2 a s) :=
  .ite (fun _ => answers_next _) fun _ => .ite (fun _ => legacyCheck_answers _) fun _ => answers_next _

/-- So are the four further bytes (41_framer.md R102). -/
theorem tail4Done_answers (s : State) : Answers (tail4Done s) := by
  unfold tail4Done
  split
  · exact .ite (fun h => acceptTail_answers h.2) fun _ => invalidCandidate_answers _
  · exact invalidCandidate_answers _

theorem onTail4_answers (a : RxAnswer) (s : State) : Answers (onTail4 a s) :=
  .ite (fun _ => answers_next _) fun _ => tail4Done_answers _

/-! ## The D0 engine -/

theorem onRebased_answers (a : ApplyAnswer) (s : State) : Answers (onRebased a s) := by
  cases a
  · exact answers_next _
  · exact fail_answers _ _

theorem onWake_answers (a : TxAnswer) (s : State) : Answers (onWake a s) :=
  .ite (fun _ => .ite (fun _ => answers_next _) fun _ => answers_next _) fun _ => fail_answers _ _

theorem onSignonDrained_answers (s : State) : Answers (onSignonDrained s) :=
  .ite (fun _ => answers_next _) fun _ => fail_answers _ _

theorem gotoSignoff_answers (s : State) : Answers (gotoSignoff s) :=
  .ite (fun _ => answers_next _) fun _ => d0Found_answers _ _

theorem onSignoffDrained_answers (s : State) : Answers (onSignoffDrained s) :=
  .ite (fun _ => d0Found_answers _ _) fun _ => fail_answers _ _

theorem captureNext_answers (s : State) : Answers (captureNext s) :=
  .ite (fun _ => fail_answers _ _) fun _ => answers_next _

theorem onCapture_answers (a : RxAnswer) {s : State} (h : s.work.len < s.bufcap) : Answers (onCapture a s) := by
  cases a with
  | byte b =>
    refine .ite (fun _ => (storeByte_answers h).andThen fun _ _ => gotoSignoff_answers _) fun _ => ?_
    exact .ite (fun _ => fail_answers _ _) fun _ => (storeByte_answers h).andThen fun _ _ => captureNext_answers _
  | empty | error => exact fail_answers _ _

theorem gotoBaud_answers (s : State) : Answers (gotoBaud s) :=
  .ite (fun _ => .ite (fun _ => answers_next _) fun _ => captureNext_answers _) fun _ => captureNext_answers _

theorem onSwitched_answers (a : ApplyAnswer) (s : State) : Answers (onSwitched a s) := by
  cases a
  · exact captureNext_answers _
  · exact fail_answers _ _

theorem gotoAck_answers (s : State) : Answers (gotoAck s) :=
  .ite (fun _ => answers_next _) fun _ => gotoBaud_answers _

theorem onAckDrained_answers (s : State) : Answers (onAckDrained s) :=
  .ite (fun _ => gotoBaud_answers _) fun _ => fail_answers _ _

theorem protocolMode_answers (s : State) : Answers (protocolMode s) := by
  refine .ite (fun _ => fail_answers _ _) fun _ => .ite (fun _ => ?_) fun _ => gotoAck_answers _
  exact .ite (fun _ => fail_answers _ _) fun _ => .ite (fun _ => fail_answers _ _) fun _ => gotoAck_answers _

theorem classifyStep_answers (c4 : Byte) (s : State) : Answers (classifyStep c4 s) := by
  unfold classifyStep
  split
  · exact protocolMode_answers _
  · exact gotoAck_answers _
  · exact gotoAck_answers _
  · exact fail_answers _ _

theorem baudIdFetch_answers (s : State) : Answers (baudIdFetch s) := by
  refine .ite (fun _ => fail_answers _ _) fun _ => ?_
  dsimp only
  split
  · exact classifyStep_answers _ _
  · exact fail_answers _ _

theorem idParse_answers (s : State) : Answers (idParse s) := by
  refine .ite (fun _ => fail_answers _ _) fun _ => .ite (fun _ => ?_) fun _ => fail_answers _ _
  exact .ite (fun _ => baudIdFetch_answers _) fun _ => fail_answers _ _

theorem idReadNext_answers (s : State) : Answers (idReadNext s) :=
  .ite (fun _ => answers_next _) fun _ => idParse_answers _

theorem onAwaitId_answers (a : RxAnswer) {s : State} (h : 0 < s.bufcap.toNat) : Answers (onAwaitId a s) := by
  cases a with
  | byte b =>
    exact .ite (fun _ => (bufWrite_answers h).andThen fun _ _ => idReadNext_answers _) fun _ => fail_answers _ _
  | empty | error => exact fail_answers _ _

theorem onIdRead_answers (a : RxAnswer) {s : State} (h : s.work.len < s.bufcap) : Answers (onIdRead a s) := by
  cases a with
  | byte b =>
    refine (storeByte_answers h).andThen fun _ _ => ?_
    exact .ite (fun _ => idParse_answers _) fun _ => idReadNext_answers _
  | empty => exact idParse_answers _
  | error => exact fail_answers _ _

/-! ## OPEN and CLOSE -/

theorem openEntry_answers (p : Path) (s : State) : Answers (openEntry p s) :=
  .ite (fun _ => fail_answers _ _) fun _ => .ite (fun _ => fail_answers _ _) fun _ => answers_next _

theorem onAcquired_answers (p : Path) (a : AcquireAnswer) (s : State) : Answers (onAcquired p a s) :=
  match a with
  | .fail => fail_answers _ _
  | .ok true => answers_next _
  | .ok false => succeed_answers _ _

theorem onAppliedP1_answers (p : Path) (a : ApplyAnswer) (s : State) : Answers (onAppliedP1 p a s) :=
  match a, p with
  | .fail, _ => answers_next _
  | .ok, .p1 => succeed_answers _ _
  | .ok, .d0 => answers_next _

theorem onAppliedD0_answers (a : ApplyAnswer) (s : State) : Answers (onAppliedD0 a s) := by
  cases a
  · exact succeed_answers _ _
  · exact answers_next _

theorem closeEntry_answers (s : State) : Answers (closeEntry s) :=
  .ite (fun _ => answers_next _) fun _ => succeed_answers _ _

/-! ## A move, a run, a command -/

/-- Each handler in its control state: those that store a byte at LEN have `LEN < BUFCAP`, and those that store one at
offset 0 have a buffer of at least 8 bytes. -/
theorem Handles.answers {c : Ctl} {k : State → Result} (h : Handles c k) {s : State} (hs : StateInv s)
    (hc : s.ctl = c) : Answers (k s) := by
  have control : CtlInv { s with ctl := c } := by subst hc; exact hs.control
  have capacity : s.status.isOpen = true → 0 < s.bufcap.toNat := fun ho =>
    Nat.lt_of_lt_of_le (by decide) (hs.openCapacity ho)
  cases h with
  | frSearch a => exact onSearch_answers a (capacity control.1)
  | frAccum a =>
    obtain ⟨-, -, hl, -⟩ := control
    exact onAccum_answers a hl
  | frTail2 a => exact onTail2_answers a s
  | frTail4 a => exact onTail4_answers a s
  | d0Rebase a => exact onRebased_answers a s
  | d0Wake a => exact onWake_answers a s
  | d0WakeDrain | d0Settle | d0Signon | d0Ack | d0Signoff => exact answers_next _
  | d0SignonDrain => exact onSignonDrained_answers s
  | d0AwaitId a => exact onAwaitId_answers a (capacity control)
  | d0IdRead a =>
    obtain ⟨-, -, hl⟩ := control
    exact onIdRead_answers a hl
  | d0IdParse => exact idParse_answers s
  | d0AckDrain => exact onAckDrained_answers s
  | d0Baud a => exact onSwitched_answers a s
  | d0Capture a =>
    obtain ⟨-, -, -, hl⟩ := control
    exact onCapture_answers a hl
  | d0SignoffDrain => exact onSignoffDrained_answers s
  | opAcquire p a => exact onAcquired_answers p a s
  | opApplyP1 p a => exact onAppliedP1_answers p a s
  | opApplyD0 a => exact onAppliedD0_answers a s
  | opRestore => exact fail_answers _ _
  | rdToggle a => exact onToggled_answers a s
  | rdParse a => exact onParsed_answers a s
  | rdDump | clRestore => exact succeed_answers _ _

theorem move_answers {s : State} {r : Result} (hs : StateInv s) (h : move s = some r) : Answers r := by
  obtain ⟨k, f, hk, rfl, -⟩ := move_eq_some h
  exact hk.answers (hs.of rfl hs.control) rfl

/-- A run from the invariant answers, since each of its moves does and keeps the invariant. -/
theorem advance_answers {s : State} (hs : StateInv s) : Answers (advance s) := by
  induction hn : movesLeft s generalizing s with
  | zero => exact ⟨s, advance_wait (move_none_of_movesLeft hn)⟩
  | succ n ih =>
    cases hm : move s with
    | none => exact ⟨s, advance_wait hm⟩
    | some r =>
      obtain ⟨u, rfl⟩ := move_answers hs hm
      rw [advance_next hm]
      exact ih (move_inv hs hm) (by have := move_movesLeft hm; omega)

/-- The beginning of a command given to an idle block stores nothing. -/
theorem start_answers (i : Instr) {s : State} (hi : s.ctl = .idle) : Answers (start i s) := by
  cases i with
  | regRead reg => exact ⟨_, execRegRead_eq_next.2 ⟨hi, rfl⟩⟩
  | regWrite reg value =>
    simp only [start, execRegWrite, whenIdle_idle hi]
    split
    · exact succeed_answers _ _
    · exact fail_answers _ _
  | bufRead offset =>
    simp only [start, execBufRead, whenIdle_idle hi]
    refine whenOpen_answers ?_
    split
    · exact succeed_answers _ _
    · exact fail_answers _ _
  | crcCompute n =>
    simp only [start, execCrcCompute, whenIdle_idle hi]
    exact whenOpen_answers (succeed_answers _ _)
  | frameRead | d0Read | read =>
    simp only [start, whenIdle_idle hi]
    exact whenOpen_answers (answers_next _)
  | openP1 | openD0 =>
    simp only [start, whenIdle_idle hi]
    exact openEntry_answers _ _
  | close =>
    simp only [start, whenIdle_idle hi]
    exact whenOpen_answers (closeEntry_answers s)

theorem exec_answers (i : Instr) {s : State} (hs : StateInv s) (hi : s.ctl = .idle) : Answers (exec i s) := by
  rw [exec_eq_start]
  exact (start_answers i hi).andThen fun _ hu => advance_answers (start_inv hs hu)

/-! ## A step of an idle block -/

/-- `s` with the words `ws` still to come from the host. -/
def State.withHost (s : State) (ws : List Word) : State := { s with env := { s.env with host := ws } }

/-- What a step of an idle block is: no word has been sent, or the word taken is a command, or it is illegal
(43_session.md R135). -/
theorem step_idle {s : State} (hi : s.ctl = .idle) :
    step s = .next s ∨ ∃ ws, (∃ i, step s = exec i (s.withHost ws)) ∨ step s = fail .badCmd (s.withHost ws) := by
  unfold step
  rw [hi]
  dsimp only
  unfold takeCommand
  cases s.env.host with
  | nil => exact .inl rfl
  | cons w ws =>
    refine .inr ⟨ws, ?_⟩
    dsimp only
    split
    next i _ => exact .inl ⟨i, rfl⟩
    next => exact .inr rfl

end Sys2Proof.Machine
end

section
/-! The last thing the block put out: while a command runs, the request it waits for (20_memory.md R60, 42_d0_handshake.md
R132). -/

namespace Sys2Proof.Machine

/-- The outstanding request, if there is one, is the last output. -/
def Awaits (s : State) : Prop := ∀ r, outstanding s = some r → s.out.getLast? = some (.request r)

theorem Awaits.ofIdle {s : State} (hi : s.ctl = .idle) : Awaits s :=
  fun _ ho => absurd hi (ctl_ne_idle_of_outstanding ho)

theorem Turn.awaits {s t : State} (h : Turn s t) : Awaits t := by
  rcases h.out with ⟨r, hout, -, hr⟩ | ⟨-, hi⟩
  · intro r' ho
    obtain rfl : r = r' := Option.some.inj (hr.symm.trans ho)
    rw [hout, List.getLast?_concat]
  · exact .ofIdle hi

theorem move_awaits {s t : State} (h : move s = some (.next t)) : Awaits t := by
  obtain ⟨u, -, ht⟩ := move_consumes h
  exact ht.awaits

theorem advance_awaits {s t : State} (hs : Awaits s) (h : advance s = .next t) : Awaits t :=
  advance_keeps (P := Awaits) (fun _ _ _ => move_awaits) hs h

/-- A command of an open session that begins with a turn, or fails because none is open. -/
theorem whenOpen_awaits {k : State → Result} (hk : Turns k) {s t : State}
    (h : (whenIdle s fun s => whenOpen s k) = .next t) : Awaits t := by
  rcases whenOpen_eq_next.1 (whenIdle_eq_next.1 h).2 with ⟨-, rfl⟩ | ⟨-, h⟩
  · exact (Turn.ofRespond _ _).awaits
  · exact (hk _ _ h).awaits

/-- A command ends at once, or its beginning puts out its first request. -/
theorem start_awaits {i : Instr} {s t : State} (h : start i s = .next t) : Awaits t := by
  cases i with
  | regRead reg =>
    obtain ⟨-, rfl⟩ := execRegRead_eq_next.1 h
    exact .ofIdle rfl
  | regWrite reg value =>
    obtain ⟨-, w, c, v, m, d, rfl⟩ := execRegWrite_eq_next h
    exact .ofIdle rfl
  | bufRead offset =>
    obtain ⟨-, v, d, rfl⟩ := execBufRead_eq_next h
    exact .ofIdle rfl
  | crcCompute n =>
    obtain ⟨-, rfl | ⟨-, v, st, c, d, rfl⟩⟩ := execCrcCompute_eq_next h <;> exact .ofIdle rfl
  | frameRead =>
    refine whenOpen_awaits (fun s u hu => ?_) h
    cases hu
    exact (frameEntry_turn _).after ⟨rfl, rfl, rfl, rfl, rfl, rfl, rfl⟩
  | d0Read =>
    refine whenOpen_awaits (fun s u hu => ?_) h
    cases hu
    exact (d0Entry_turn _).after ⟨rfl, rfl, rfl, rfl, rfl, rfl, rfl⟩
  | openP1 | openD0 => exact (openEntry_turns _ _ _ (whenIdle_eq_next.1 h).2).awaits
  | read => exact whenOpen_awaits (fun s u hu => by cases hu; exact readEntry_turn s) h
  | close => exact whenOpen_awaits closeEntry_turns h

theorem exec_awaits {i : Instr} {s t : State} (h : exec i s = .next t) : Awaits t := by
  obtain ⟨u, hu, ha⟩ := exec_eq_next.1 h
  exact advance_awaits (start_awaits hu) ha

theorem step_awaits {s t : State} (hs : Awaits s) (h : step s = .next t) : Awaits t := by
  by_cases hi : s.ctl = .idle
  · rcases step_idle hi with hn | ⟨ws, ⟨i, hx⟩ | hf⟩
    · cases hn.symm.trans h
      exact hs
    · exact exec_awaits (hx.symm.trans h)
    · exact (fail_turns _ _ _ (hf.symm.trans h)).awaits
  · exact advance_awaits hs (step_running hi ▸ h)

end Sys2Proof.Machine

namespace Sys2Proof.Proofs

open Sys2Proof.Machine

/-- Settles O49: each handler stores within BUFCAP by what the invariant says of its control state (`Handles.answers`),
every move keeps the invariant, and an idle block takes any command (`start_answers`). -/
theorem invariantRulesOutStops : Obligations.InvariantRulesOutStops := by
  intro s hs
  by_cases hi : s.ctl = .idle
  · rcases step_idle hi with hn | ⟨ws, ⟨i, hx⟩ | hf⟩
    · exact ⟨s, hn⟩
    · rw [hx]
      exact exec_answers i (hs.of rfl hs.control) hi
    · exact ⟨_, hf⟩
  · rw [step_running hi]
    exact advance_answers hs

/-- Settles O50: a move consumes one answer and takes one turn (`move_consumes`), and so the last output is the request
outstanding after every move, and after the beginning of every command. -/
theorem oneRequestOutstanding : Obligations.OneRequestOutstanding := by
  refine ⟨fun s t h => ?_, fun s t => step_awaits⟩
  obtain ⟨u, hu, ht⟩ := move_consumes h
  have hout : u.out = s.out := by rw [hu.rest]
  refine ⟨by rw [ht.env]; exact hu.spent, ?_⟩
  rw [← hout]
  rcases ht.out with ⟨r, ho, hc, hr⟩ | ⟨ho, hc⟩
  · exact .inl ⟨r, hc, hr, ho⟩
  · exact .inr ⟨hc, ho⟩

end Sys2Proof.Proofs
end

section
/-! The command word: decoding undoes encoding and encoding decoding, and which words are illegal (30_encoding.md R67 to
R73). -/

namespace Sys2Proof

/-! ## The must-be-zero fields -/

theorem needImmZero_eq_command {w : Word} {i j : Instr} :
    needImmZero w j = .command i ↔ immField w = 0 ∧ j = i := by
  unfold needImmZero; split <;> simp_all

theorem needRegZero_eq_command {w : Word} {i j : Instr} :
    needRegZero w j = .command i ↔ regField w = 0 ∧ j = i := by
  unfold needRegZero; split <;> simp_all

theorem needBothZero_eq_command {w : Word} {i j : Instr} :
    needBothZero w j = .command i ↔ regField w = 0 ∧ immField w = 0 ∧ j = i := by
  unfold needBothZero; split <;> simp_all [needImmZero_eq_command]

theorem needImmZero_isIllegal {w : Word} {j : Instr} :
    (∃ why, needImmZero w j = .illegal why) ↔ immField w ≠ 0 := by
  unfold needImmZero; split <;> simp_all

theorem needRegZero_isIllegal {w : Word} {j : Instr} :
    (∃ why, needRegZero w j = .illegal why) ↔ regField w ≠ 0 := by
  unfold needRegZero; split <;> simp_all

theorem needBothZero_isIllegal {w : Word} {j : Instr} :
    (∃ why, needBothZero w j = .illegal why) ↔ regField w ≠ 0 ∨ immField w ≠ 0 := by
  unfold needBothZero; split <;> simp_all [needImmZero_isIllegal]

/-! ## The opcode map -/

/-- What holds of every row of the opcode map (R68), and of a reserved opcode, holds of the decoding of every word. -/
theorem decode_cases {w : Word} {motive : Decoded → Prop}
    (regRead : opcField w = 0x01 → motive (needImmZero w (.regRead (regField w))))
    (regWrite : opcField w = 0x02 → motive (.command (.regWrite (regField w) (immField w))))
    (bufRead : opcField w = 0x03 → motive (needRegZero w (.bufRead (immField w))))
    (crcCompute : opcField w = 0x10 → motive (needRegZero w (.crcCompute (immField w))))
    (frameRead : opcField w = 0x20 → motive (needBothZero w .frameRead))
    (d0Read : opcField w = 0x30 → motive (needBothZero w .d0Read))
    (openP1 : opcField w = 0x40 → motive (needBothZero w .openP1))
    (openD0 : opcField w = 0x41 → motive (needBothZero w .openD0))
    (read : opcField w = 0x42 → motive (needBothZero w .read))
    (close : opcField w = 0x43 → motive (needBothZero w .close))
    (reserved : opcField w ∉ [0x01#8, 0x02#8, 0x03#8, 0x10#8, 0x20#8, 0x30#8, 0x40#8, 0x41#8, 0x42#8, 0x43#8] →
      motive (.illegal .reservedOpcode)) : motive (decode w) := by
  unfold decode
  split_ifs with h1 h2 h3 h4 h5 h6 h7 h8 h9 h10
  exacts [regRead h1, regWrite h2, bufRead h3, crcCompute h4, frameRead h5, d0Read h6, openP1 h7, openD0 h8, read h9,
    close h10, reserved (by simp_all)]

theorem commandWord_of_fields {w : Word} {o r : BitVec 8} {i : BitVec 16} (ho : opcField w = o) (hr : regField w = r)
    (hi : immField w = i) : commandWord o r i = w := by
  rw [← ho, ← hr, ← hi, commandWord_fields]

/-- A legal word has the opcode of its row, its command's operands, and 0 in every other field. -/
theorem encode_of_decode {w : Word} {i : Instr} : decode w = .command i → encode i = w := by
  refine decode_cases (motive := fun d => d = .command i → encode i = w) ?regRead ?regWrite ?bufRead ?crcCompute
    ?frameRead ?d0Read ?openP1 ?openD0 ?read ?close ?reserved <;> intro ho h
  case regRead =>
    obtain ⟨hi, rfl⟩ := needImmZero_eq_command.1 h
    exact commandWord_of_fields ho rfl hi
  case regWrite =>
    cases h
    exact commandWord_of_fields ho rfl rfl
  case bufRead | crcCompute =>
    obtain ⟨hr, rfl⟩ := needRegZero_eq_command.1 h
    exact commandWord_of_fields ho hr rfl
  case frameRead | d0Read | openP1 | openD0 | read | close =>
    obtain ⟨hr, hi, rfl⟩ := needBothZero_eq_command.1 h
    exact commandWord_of_fields ho hr hi
  case reserved => cases h

/-- The word of a command has the opcode of its row, and 0 in the fields its row wants 0. -/
theorem decode_encode (i : Instr) : decode (encode i) = .command i := by
  have ho := opcField_commandWord
  have hr := regField_commandWord
  have hi := immField_commandWord
  cases i with
  | regRead reg => simp [encode, decode, ho, hr, hi, needImmZero_eq_command]
  | regWrite reg value => simp [encode, decode, ho, hr, hi]
  | bufRead | crcCompute => simp [encode, decode, ho, hr, hi, needRegZero_eq_command]
  | frameRead | d0Read | openP1 | openD0 | read | close =>
    simp [encode, decode, ho, hr, hi, needBothZero_eq_command]

/-- A word is illegal in the ways R70 lists, row by row. -/
theorem decode_isIllegal (w : Word) : (∃ why, decode w = .illegal why) ↔
    opcField w ∉ [0x01#8, 0x02#8, 0x03#8, 0x10#8, 0x20#8, 0x30#8, 0x40#8, 0x41#8, 0x42#8, 0x43#8] ∨
      (regField w ≠ 0 ∧ opcField w ∉ [0x01#8, 0x02#8]) ∨
      (immField w ≠ 0 ∧ opcField w ∈ [0x01#8, 0x20#8, 0x30#8, 0x40#8, 0x41#8, 0x42#8, 0x43#8]) := by
  refine decode_cases (motive := fun d => (∃ why, d = .illegal why) ↔ _) ?regRead ?regWrite ?bufRead ?crcCompute
    ?frameRead ?d0Read ?openP1 ?openD0 ?read ?close ?reserved <;> intro ho
  case regRead => rw [needImmZero_isIllegal]; simp [ho]
  case regWrite => simp [ho]
  case bufRead | crcCompute => rw [needRegZero_isIllegal]; simp [ho]
  case frameRead | d0Read | openP1 | openD0 | read | close => rw [needBothZero_isIllegal]; simp [ho]
  case reserved => exact ⟨fun _ => .inl ho, fun _ => ⟨_, rfl⟩⟩

end Sys2Proof
end

section
/-! What a command puts out: requests, and one response when it ends (30_encoding.md R72, 43_session.md R135). -/

namespace Sys2Proof.Machine

/-- One thing goes out: a request, with the command still in progress, or the response, which RESULT holds too. -/
def PutsOutOne (s t : State) : Prop :=
  (∃ r, t.out = s.out ++ [.request r] ∧ t.ctl ≠ .idle) ∨ (t.out = s.out ++ [.response t.result] ∧ t.ctl = .idle)

/-- Requests go out and then, exactly when the command ends, the response, which RESULT holds too. -/
def Replies (s t : State) : Prop :=
  ∃ requests : List Request,
    t.out = s.out ++ requests.map .request ++ if t.ctl = .idle then [.response t.result] else []

theorem Turn.putsOutOne {s t : State} (h : Turn s t) : PutsOutOne s t := by
  rcases h.out with ⟨r, ho, hc, -⟩ | h
  · exact .inl ⟨r, ho, hc⟩
  · exact .inr h

theorem move_putsOutOne {s t : State} (h : move s = some (.next t)) : PutsOutOne s t := by
  obtain ⟨u, hu, ht⟩ := move_consumes h
  have hout : u.out = s.out := by rw [hu.rest]
  have hp := ht.putsOutOne
  rwa [PutsOutOne, hout] at hp

theorem PutsOutOne.replies {s t : State} (h : PutsOutOne s t) : Replies s t := by
  rcases h with ⟨r, ho, hc⟩ | ⟨ho, hc⟩
  · exact ⟨[r], by simp [ho, hc]⟩
  · exact ⟨[], by simp [ho, hc]⟩

/-- A request before what a command puts out from there. -/
theorem Replies.afterRequest {s u t : State} {r : Request} (ho : u.out = s.out ++ [.request r]) (h : Replies u t) :
    Replies s t := by
  obtain ⟨requests, hout⟩ := h
  exact ⟨r :: requests, by simp [hout, ho]⟩

/-- What has put out one thing runs on to a reply: after a response nothing follows, after a request the rest of the
run. -/
theorem PutsOutOne.replies_advance {s u t : State} (h : PutsOutOne s u) (ha : advance u = .next t) : Replies s t := by
  refine advance_induction (motive := fun u t => ∀ s, PutsOutOne s u → Replies s t)
    (fun t _ s hs => hs.replies) (fun u v t hm ih s hs => ?_) ha s h
  rcases hs with ⟨r, ho, -⟩ | ⟨-, hi⟩
  · exact (ih u (move_putsOutOne hm)).afterRequest ho
  · cases (move_idle hi).symm.trans hm

/-- A command of an open session begins as `k` does, or fails because none is open. -/
theorem whenOpen_putsOutOne {k : State → Result} {s t : State} (hk : k s = .next t → PutsOutOne s t)
    (h : (whenIdle s fun s => whenOpen s k) = .next t) : PutsOutOne s t := by
  rcases whenOpen_eq_next.1 (whenIdle_eq_next.1 h).2 with ⟨-, rfl⟩ | ⟨-, h⟩
  · exact (Turn.ofRespond _ _).putsOutOne
  · exact hk h

/-- Every command but REG_READ begins with a request or ends with the response in RESULT. -/
theorem start_putsOutOne {i : Instr} {s t : State} (h : start i s = .next t) (hne : ∀ reg, i ≠ .regRead reg) :
    PutsOutOne s t := by
  cases i with
  | regRead reg => exact absurd rfl (hne reg)
  | regWrite reg value =>
    obtain ⟨-, w, c, v, m, d, rfl⟩ := execRegWrite_eq_next h
    exact .inr ⟨rfl, rfl⟩
  | bufRead offset =>
    obtain ⟨-, v, d, rfl⟩ := execBufRead_eq_next h
    exact .inr ⟨rfl, rfl⟩
  | crcCompute n =>
    obtain ⟨-, rfl | ⟨-, v, st, c, d, rfl⟩⟩ := execCrcCompute_eq_next h <;> exact .inr ⟨rfl, rfl⟩
  | frameRead => exact whenOpen_putsOutOne (fun hu => by cases hu; exact (frameEntry_turn _).putsOutOne) h
  | d0Read => exact whenOpen_putsOutOne (fun hu => by cases hu; exact (d0Entry_turn _).putsOutOne) h
  | openP1 | openD0 => exact (openEntry_turns _ _ _ (whenIdle_eq_next.1 h).2).putsOutOne
  | read => exact whenOpen_putsOutOne (fun hu => by cases hu; exact (readEntry_turn _).putsOutOne) h
  | close => exact whenOpen_putsOutOne (fun hu => (closeEntry_turns _ _ hu).putsOutOne) h

theorem exec_replies {i : Instr} {s t : State} (h : exec i s = .next t) (hne : ∀ reg, i ≠ .regRead reg) :
    Replies s t := by
  obtain ⟨u, hu, ha⟩ := exec_eq_next.1 h
  exact (start_putsOutOne hu hne).replies_advance ha

end Sys2Proof.Machine
end

section
/-! The settled statements about the encoding, the responses and the baud-id bytes. -/

namespace Sys2Proof.Machine

/-- An illegal word is taken and fails with ERR_BADCMD (30_encoding.md R70). -/
theorem step_illegal {s : State} {w : Word} {ws : List Word} {why : Illegal} (hi : s.ctl = .idle)
    (hh : s.env.host = w :: ws) (hd : decode w = .illegal why) : step s = fail .badCmd (s.withHost ws) := by
  simp only [step, hi, takeCommand, hh, hd]
  rfl

/-- A byte in no row of the baud-id table is outside both ranges of the table (30_encoding.md R80). -/
theorem classifyBaudId_outside {c4 : Byte} (h : ∀ r ∈ baudTable, c4 ≠ r.1 ∧ c4 ≠ r.2.1) :
    classifyBaudId c4 = if printable c4 && c4 ≠ chSlash && c4 ≠ chBang then .otherPrintable else .invalid := by
  simp only [baudTable, List.forall_mem_cons, ne_eq] at h
  have hdigit : ¬ (chZero ≤ c4 ∧ c4 ≤ chSix) := by bv_omega
  have hletter : ¬ (chA ≤ c4 ∧ c4 ≤ chG) := by bv_omega
  simp only [classifyBaudId, Bool.and_eq_true, decide_eq_true_eq, if_neg hdigit, if_neg hletter]

end Sys2Proof.Machine

namespace Sys2Proof.Proofs

open Sys2Proof.Machine

/-! ## Encoding -/

/-- Settles O1, command by command. -/
theorem decodeOfEncode : Obligations.DecodeOfEncode := decode_encode

/-- Settles O2: the fields of a legal word are those of its command, and a word is made of its fields. -/
theorem encodeOfDecode : Obligations.EncodeOfDecode := fun _ _ => encode_of_decode

/-- Settles O3: the rows of the opcode map decide which words are illegal, and the step fails as `fail` does. -/
theorem illegalWordsAreBadCommands : Obligations.IllegalWordsAreBadCommands := by
  refine ⟨decode_isIllegal, fun s w ws why hi hh hd => ?_⟩
  rw [step_illegal hi hh hd, fail_eq]
  have hword : ErrCode.badCmd.word = 0xFFFFFFF5#32 := by decide
  rw [hword, respond, answer, ← hi]
  rfl

/-- Settles O4: each word is the `encode` of its command, written out. -/
theorem specWordsDecode : Obligations.SpecWordsDecode :=
  ⟨decode_encode (.regRead 0x0C), decode_encode (.regWrite 0x02 64), decode_encode (.bufRead 44),
    decode_encode (.crcCompute 45), decode_encode .frameRead, decode_encode .d0Read, decode_encode .openP1,
    decode_encode .openD0, decode_encode .read, decode_encode .close⟩

/-! ## Responses -/

/-- Settles O51: REG_READ ends at once with its answer; every other command begins with one output and so replies. -/
theorem oneResponsePerCommand : Obligations.OneResponsePerCommand := by
  intro i s t h
  by_cases hr : ∃ reg, i = .regRead reg
  · obtain ⟨reg, rfl⟩ := hr
    obtain ⟨hi, rfl⟩ := execRegRead_eq_next.1 h
    exact ⟨[], (readRegister reg s).getD ErrCode.badCmd.word, by simp, fun _ hne => absurd rfl (hne reg),
      fun _ => ⟨rfl, rfl⟩⟩
  · obtain ⟨requests, hout⟩ := exec_replies h (not_exists.1 hr)
    exact ⟨requests, t.result, hout, fun _ _ => rfl, fun hx => absurd hx hr⟩

/-! ## The baud-id bytes -/

/-- Settles O39: the seven rows are evaluated, and a byte in none of them is in neither range. -/
theorem baudIdTable : Obligations.BaudIdTable := by
  refine ⟨by decide, fun c4 h => ?_⟩
  rw [classifyBaudId_outside h]
  simp [printable, and_assoc]

end Sys2Proof.Proofs
end

section
/-! The CRC unit: CRC-16/ARC byte by byte, the two tests for the end marker, and what CRC_COMPUTE does in each case of
40_crc.md R85. -/

namespace Sys2Proof.Machine

/-! ## CRC-16/ARC (40_crc.md R88)

A one-byte change shows because no step of the register loses information (R91): the reflected polynomial has its top
bit set, so the bit shifted out can be read off the result. -/

theorem crcBit_topBit (c : BitVec 16) : (crcBit c).getLsbD 15 = c.getLsbD 0 := by
  unfold crcBit
  split
  next h => rw [h]; simp
  next h => rw [Bool.eq_false_of_not_eq_true h]; simp

/-- Two registers with the same lowest bit that agree once it is shifted out are the same. -/
theorem eq_of_ushiftRight_one_eq {w : Nat} {a b : BitVec w} (h0 : a.getLsbD 0 = b.getLsbD 0) (h : a >>> 1 = b >>> 1) :
    a = b := by
  refine BitVec.eq_of_getLsbD_eq fun i _ => ?_
  cases i with
  | zero => exact h0
  | succ i => simpa [Nat.add_comm] using congrArg (·.getLsbD i) h

theorem crcBit_injective : Function.Injective crcBit := by
  intro a b h
  have h0 : a.getLsbD 0 = b.getLsbD 0 := by rw [← crcBit_topBit a, h, crcBit_topBit b]
  refine eq_of_ushiftRight_one_eq h0 ?_
  unfold crcBit at h
  rw [h0] at h
  split at h
  · exact (BitVec.xor_left_inj _).1 h
  · exact h

theorem crcByte_eq_iterate (c : BitVec 16) (b : Byte) : crcByte c b = crcBit^[8] (c ^^^ b.setWidth 16) := rfl

theorem crcByte_inj_register {c d : BitVec 16} {b : Byte} : crcByte c b = crcByte d b ↔ c = d := by
  rw [crcByte_eq_iterate, crcByte_eq_iterate, (crcBit_injective.iterate 8).eq_iff, BitVec.xor_left_inj]

theorem crcByte_inj_byte {c : BitVec 16} {x y : Byte} : crcByte c x = crcByte c y ↔ x = y := by
  rw [crcByte_eq_iterate, crcByte_eq_iterate, (crcBit_injective.iterate 8).eq_iff, BitVec.xor_right_inj]
  refine ⟨fun h => ?_, congrArg _⟩
  simpa using congrArg (·.setWidth 8) h

/-- Different registers stay different over any further bytes. -/
theorem foldl_crcByte_injective (l : List Byte) : Function.Injective fun c => l.foldl crcByte c := by
  induction l with
  | nil => exact Function.injective_id
  | cons b l ih => exact ih.comp fun c d h => crcByte_inj_register.1 h

/-- CRC-16/ARC tells two strings apart that differ in one byte (40_crc.md R91). -/
theorem crc16Arc_ne_of_one_byte (before after : List Byte) {x y : Byte} (h : x ≠ y) :
    crc16Arc (before ++ x :: after) ≠ crc16Arc (before ++ y :: after) := by
  simp only [crc16Arc, List.foldl_append, List.foldl_cons]
  exact fun e => h (crcByte_inj_byte.1 (foldl_crcByte_injective after e))

/-! ## Bytes held in the buffer -/

theorem Holds.read {m : Memory} {l : List Byte} (h : Holds m 0 l) {i : Nat} (hi : i < l.length) :
    m.read i = l[i]? := by
  rw [List.getElem?_eq_getElem hi, ← h i hi, Nat.zero_add]

/-- One write into a held string changes that byte of it. -/
theorem Holds.write {m : Memory} {l : List Byte} (h : Holds m 0 l) (k : Nat) (b : Byte) :
    Holds (m.write k b) 0 (l.set k b) := by
  intro j hj
  rw [List.length_set] at hj
  have hr := h j hj
  rw [Memory.read_write, List.getElem_set]
  simp only [Nat.zero_add, eq_comm (a := j)] at hr ⊢
  split
  · rfl
  · exact hr

/-- Cells that are all written hold some string. -/
theorem exists_holds_of_written {m : Memory} {n : Nat} (h : ∀ i, i < n → (m.read i).isSome) :
    ∃ l : List Byte, l.length = n ∧ Holds m 0 l := by
  refine ⟨List.ofFn fun i : Fin n => (m.read i).get (h i i.isLt), List.length_ofFn, fun j hj => ?_⟩
  simp

/-! ## The tests for the end marker (40_crc.md R85, R90) -/

section
variable {k n : Nat} {s : State} (hk : 0 < k) (hcap : n ≤ s.bufcap.toNat)
include hk hcap

theorem bangAt_bang (hn : k ≤ n) (h : s.buf.read (n - k) = some chBang) : bangAt k n s = (true, s) := by
  simp [bangAt, hn, bufRead_written (by omega : n - k < s.bufcap.toNat) h]

theorem bangAt_other (h : k ≤ n → ∃ b, s.buf.read (n - k) = some b ∧ b ≠ chBang) : bangAt k n s = (false, s) := by
  by_cases hn : k ≤ n
  · obtain ⟨b, hb, hne⟩ := h hn
    simpa [bangAt, hn, bufRead_written (by omega : n - k < s.bufcap.toNat) hb] using hne
  · simp [bangAt, hn]

end

/-! ## The four cases of R85 -/

theorem crcBody_beyond {n : Nat} {s : State} (h : s.bufcap.toNat < n) : crcBody n s = (0, setCrc .unclassed 0 s) :=
  if_pos h

section
variable {n : Nat} {s : State} (hcap : n ≤ s.bufcap.toNat)
include hcap

theorem crcBody_legacy (hn : 3 ≤ n) (h : s.buf.read (n - 3) = some chBang) :
    crcBody n s = (0, setCrc .legacy 0 s) := by
  simp [crcBody, Nat.not_lt.2 hcap, bangAt_bang (by decide) hcap hn h]

/-- The CRC-bearing case: the bytes up to and with the `'!'` are the ones covered (40_crc.md R86). -/
theorem crcBody_bearing {covered : List Byte} (hlen : covered.length + 6 = n) (hc : Holds s.buf 0 covered)
    (hlast : covered.getLast? = some chBang) (h3 : 3 ≤ n → ∃ b, s.buf.read (n - 3) = some b ∧ b ≠ chBang) :
    crcBody n s = (crc16Fn s.params.crc covered, setCrc .crc (crc16Fn s.params.crc covered) s) := by
  have hpos : 0 < covered.length := List.length_pos_iff.2 fun e => by simp [e] at hlast
  have h7 : s.buf.read (n - 7) = some chBang := by
    rw [← hlast, List.getLast?_eq_getElem?, ← hc.read (by omega), show n - 7 = covered.length - 1 by omega]
  have hslice : bufSlice 0 (n - 6) s = (covered, s) := by
    rw [show n - 6 = covered.length by omega]
    exact bufSlice_written covered 0 s (by omega) hc
  simp [crcBody, Nat.not_lt.2 hcap, bangAt_other (by decide) hcap h3, bangAt_bang (by decide) hcap (by omega) h7,
    crcBearing, hslice]

theorem crcBody_unclassed (h3 : 3 ≤ n → ∃ b, s.buf.read (n - 3) = some b ∧ b ≠ chBang)
    (h7 : 7 ≤ n → ∃ b, s.buf.read (n - 7) = some b ∧ b ≠ chBang) : crcBody n s = (0, setCrc .unclassed 0 s) := by
  simp [crcBody, Nat.not_lt.2 hcap, bangAt_other (by decide) hcap h3, bangAt_other (by decide) hcap h7]

end

/-- Over written bytes the CRC unit classes and computes as `classOf` says, and draws nothing. -/
theorem crcBody_holds {s : State} {tel : List Byte} (hcap : tel.length ≤ s.bufcap.toNat) (h : Holds s.buf 0 tel) :
    crcBody tel.length s =
      ((classOf s.params.crc tel).2, setCrc (classOf s.params.crc tel).1 (classOf s.params.crc tel).2 s) := by
  have other : ∀ k, 0 < k → ¬ (k ≤ tel.length ∧ tel[tel.length - k]? = some chBang) → k ≤ tel.length →
      ∃ b, s.buf.read (tel.length - k) = some b ∧ b ≠ chBang := by
    intro k hk hne hle
    have hlt : tel.length - k < tel.length := by omega
    rw [h.read hlt]
    exact ⟨_, List.getElem?_eq_getElem hlt, fun e => hne ⟨hle, by rw [List.getElem?_eq_getElem hlt, e]⟩⟩
  unfold classOf
  split_ifs with h3 h7
  · exact crcBody_legacy hcap h3.1 (by rw [h.read (by omega), h3.2])
  · refine crcBody_bearing hcap (by simp; omega) (fun j hj => ?_) ?_ (other 3 (by decide) h3)
    · rw [List.length_take] at hj
      rw [List.getElem_take, h j (by omega)]
    · rw [List.getLast?_take, if_neg (by omega), show tel.length - 6 - 1 = tel.length - 7 by omega, h7.2]
      rfl
  · exact crcBody_unclassed hcap (other 3 (by decide) h3) (other 7 (by decide) h7)

/-- Over written cells the CRC unit gives one class and one CRC in every state that agrees in BUF, BUFCAP and CRC16_FN,
and draws nothing (40_crc.md R92). -/
theorem crcBody_written {n : Nat} {s : State} (h : ∀ i, i < n → (s.buf.read i).isSome) :
    ∃ st c, ∀ t : State, t.buf = s.buf → t.bufcap = s.bufcap → t.params = s.params → crcBody n t = (c, setCrc st c t) := by
  obtain ⟨tel, rfl, htel⟩ := exists_holds_of_written h
  by_cases hcap : tel.length ≤ s.bufcap.toNat
  · refine ⟨(classOf s.params.crc tel).1, (classOf s.params.crc tel).2, fun t hbuf hbc hp => ?_⟩
    rw [crcBody_holds (hbc ▸ hcap) (hbuf ▸ htel), hp]
  · exact ⟨_, _, fun t _ hbc _ => crcBody_beyond (hbc ▸ Nat.lt_of_not_le hcap)⟩

/-! ## CRC_COMPUTE -/

/-- CRC_COMPUTE of an open session: the class and the CRC that the CRC unit gives are written, and the CRC is the answer
(40_crc.md R85). -/
theorem exec_crcCompute_of_crcBody {n : BitVec 16} {s : State} {st : Style} {c : BitVec 16} {d : Nat} (hs : Ready s)
    (h : crcBody n.toNat s = (c, { setCrc st c s with draws := d })) :
    exec (.crcCompute n) s = .next { s with
      status := { s.status with style := st }
      crcComputed := c
      draws := d
      result := c.setWidth 32
      out := s.out ++ [.response (c.setWidth 32)] } := by
  obtain ⟨hidle, hopen⟩ := hs
  calc exec (.crcCompute n) s
      = whenIdle s fun s => whenOpen s fun s => succeed (crcBody n.toNat s).1.toNat (crcBody n.toNat s).2 := rfl
    _ = .next (respond (c.setWidth 32) { setCrc st c s with draws := d }) := by
        rw [whenIdle_idle hidle, whenOpen_open hopen, h, succeed_eq, BitVec.ofNat_toNat]
    _ = _ := by simp only [respond, answer, setCrc, ← hidle]

end Sys2Proof.Machine

namespace Sys2Proof.Proofs

open Sys2Proof.Machine

/-! ## The statements about the CRC unit -/

/-- Settles O18: the test at `n-3` succeeds, or the length test has failed before it. -/
theorem crcOfLegacyIsZero : Obligations.CrcOfLegacyIsZero := by
  intro n s hs hn h
  by_cases hcap : n.toNat ≤ s.bufcap.toNat
  · rw [if_pos hcap]
    exact exec_crcCompute_of_crcBody hs (crcBody_legacy hcap hn h)
  · rw [if_neg hcap]
    exact exec_crcCompute_of_crcBody hs (crcBody_beyond (Nat.lt_of_not_le hcap))

/-- Settles O19: the slice read in the CRC-bearing case is the covered string. -/
theorem crcCoversThroughTheEndMarker : Obligations.CrcCoversThroughTheEndMarker := by
  intro n covered d s hs hlen hcap hc hlast hd hne
  exact exec_crcCompute_of_crcBody hs (crcBody_bearing hcap hlen hc hlast fun _ => ⟨d, hd, hne⟩)

/-- Settles O20: the length test fails, or both tests for the `'!'` do. -/
theorem crcOfNoTelegramIsZero : Obligations.CrcOfNoTelegramIsZero := by
  intro n s hs h
  by_cases hcap : n.toNat ≤ s.bufcap.toNat
  · obtain ⟨h3, h7⟩ := h.resolve_left (Nat.not_lt.2 hcap)
    exact exec_crcCompute_of_crcBody hs (crcBody_unclassed hcap h3 h7)
  · exact exec_crcCompute_of_crcBody hs (crcBody_beyond (Nat.lt_of_not_le hcap))

/-- Settles O21: the frame is `crcBody_state`; over written cells the second command finds the BUF, BUFCAP and CRC16_FN
of the first. -/
theorem crcComputeIsPure : Obligations.CrcComputeIsPure := by
  intro n s hs
  by_cases hw : ∀ i, i < n.toNat → (s.buf.read i).isSome
  · obtain ⟨st, c, hbody⟩ := crcBody_written hw
    exact ⟨st, c, s.draws, exec_crcCompute_of_crcBody hs (hbody s rfl rfl rfl), fun _ =>
      ⟨rfl, exec_crcCompute_of_crcBody (d := s.draws) hs (hbody _ rfl rfl rfl)⟩⟩
  · obtain ⟨st, d, -, hbody⟩ := crcBody_state n.toNat s
    exact ⟨st, _, d, exec_crcCompute_of_crcBody hs (Prod.ext rfl hbody), fun h => absurd h hw⟩

/-- What RESULT holds after CRC_COMPUTE of a CRC-bearing telegram, with the covered bytes given. -/
theorem result_of_crcCompute_bearing {n : BitVec 16} {covered : List Byte} {d : Byte} {s t : State} (hs : Ready s)
    (hlen : covered.length + 6 = n.toNat) (hcap : n.toNat ≤ s.bufcap.toNat) (hc : Holds s.buf 0 covered)
    (hlast : covered.getLast? = some chBang) (hd : s.buf.read (n.toNat - 3) = some d) (hne : d ≠ chBang)
    (h : exec (.crcCompute n) s = .next t) : t.result = (crc16Fn s.params.crc covered).setWidth 32 := by
  rw [crcCoversThroughTheEndMarker n covered d s hs hlen hcap hc hlast hd hne] at h
  cases h
  rfl

/-- Settles O22: both answers are the CRC-16/ARC of the covered string, once with `x` and once with `y` in it. -/
theorem crcDetectsEveryChangedByte : Obligations.CrcDetectsEveryChangedByte := by
  intro n before after x y d s t u hs harc hxy hlen hcap hc hd hne ht hu heq
  have hcov : ∀ b, (before ++ b :: after ++ [chBang]).length + 6 = n.toNat := fun b => by simp; omega
  have hc' : Holds (s.buf.write before.length y) 0 (before ++ y :: after ++ [chBang]) := by
    simpa using hc.write before.length y
  have hd' : (s.buf.write before.length y).read (n.toNat - 3) = some d := by
    rw [Memory.read_write_ne _ _ (by omega), hd]
  have hx := result_of_crcCompute_bearing hs (hcov x) hcap hc List.getLast?_concat hd hne ht
  have hy := result_of_crcCompute_bearing (s := { s with buf := s.buf.write before.length y }) hs (hcov y) hcap hc'
    List.getLast?_concat hd' hne hu
  rw [hx, hy, harc] at heq
  refine crc16Arc_ne_of_one_byte before (after ++ [chBang]) hxy ?_
  simpa [crc16Fn] using congrArg (·.setWidth 16) heq

/-- Settles O23: the loop of 40_crc.md R88 is run on each string. -/
theorem crcCheckValues : Obligations.CrcCheckValues := by
  simp [Obligations.CrcCheckValues, crc16Fn, crc16Arc, crcByte, crcBit]

end Sys2Proof.Proofs
end

section
/-! The framer on the wire: a state of the framer written out over the state its command began from, what one answered
`Rx()` does to it, and what it does with a candidate and with its tail (41_framer.md R95 to R103). The lemmas say nothing of
what follows `frameFound` and `frameNone`, so they serve FRAME_READ and READ alike. -/

namespace Sys2Proof.Machine

/-! ## A state of the framer -/

/-- `s` with the framer running over it: control state `c`, buffer `m`, internal registers `w`, `n` failures charged,
the answers `as` to come and `r` reads issued. The framer writes nothing else before it ends. -/
def State.scan (s : State) (c : Ctl) (m : Memory) (w : Work) (n : Nat) (as : List RxAnswer) (r : Nat) : State :=
  { s with
    ctl := c
    buf := m
    work := w
    failcnt := saturate31 n
    env := { s.env with rx := as }
    out := s.out ++ rxRequests r }

/-- The working registers with LEN at `k`. -/
def Work.atLen (w : Work) (k : Nat) : Work := { w with len := BitVec.ofNat 16 k }

/-- The working registers after the tail reads that `l` answered. -/
def Work.tailed (w : Work) (l : List RxAnswer) : Work :=
  { w with tail := l.map probeOf, got := countBytes (l.map probeOf) }

/-- What the framer keeps of its internal registers and of the buffer until it ends: the sampled budget, the mark of
READ, and the cells beyond BUFCAP. -/
structure Carried (cap : Nat) (m : Memory) (w : Work) (m' : Memory) (w' : Work) : Prop where
  mf : w'.mf = w.mf
  inRead : w'.inRead = w.inRead
  beyond : SameOutside m m' 0 cap

theorem Carried.refl (cap : Nat) (m : Memory) (w : Work) : Carried cap m w m w := ⟨rfl, rfl, fun _ _ => rfl⟩

theorem Carried.trans {cap : Nat} {m m' m'' : Memory} {w w' w'' : Work} (h : Carried cap m w m' w')
    (k : Carried cap m' w' m'' w'') : Carried cap m w m'' w'' :=
  ⟨k.mf.trans h.mf, k.inRead.trans h.inRead, fun a ha => (k.beyond a ha).trans (h.beyond a ha)⟩

/-- A run of writes holds what was written. -/
theorem Holds.writeAll (m : Memory) (i : Nat) (l : List Byte) : Holds (m.writeAll i l) i l := fun j hj => by
  rw [Memory.read_writeAll, dif_pos (by omega)]
  simp

theorem SameOutside.writeAll (m : Memory) {l : List Byte} {cap : Nat} (h : l.length ≤ cap) :
    SameOutside m (m.writeAll 0 l) 0 cap := fun a ha => by
  rw [Memory.read_writeAll, dif_neg (by omega)]

/-- A further run of writes behind a held string. -/
theorem Holds.append {m : Memory} {l : List Byte} (h : Holds m 0 l) (t : List Byte) :
    Holds (m.writeAll l.length t) 0 (l ++ t) := by
  intro j hj
  rw [List.length_append] at hj
  rw [Memory.read_writeAll, Nat.zero_add]
  split
  case isTrue hin => rw [List.getElem_append_right hin.1]
  case isFalse hout =>
    have hlt : j < l.length := by omega
    rw [List.getElem_append_left hlt, ← h j hlt, Nat.zero_add]

theorem rxBytes_append (l k : List Byte) : rxBytes (l ++ k) = rxBytes l ++ rxBytes k := List.map_append

@[simp] theorem rxBytes_cons (b : Byte) (l : List Byte) : rxBytes (b :: l) = .byte b :: rxBytes l := rfl

@[simp] theorem rxBytes_length (l : List Byte) : (rxBytes l).length = l.length := List.length_map ..

theorem countBytes_map_probeOf (l : List RxAnswer) : countBytes (l.map probeOf) = byteCount l := by
  induction l with
  | nil => rfl
  | cons a l ih =>
    simp only [countBytes, byteCount] at ih ⊢
    cases a with
    | byte b => simpa [probeOf] using ih
    | empty | error => exact ih

/-! ## The failure budget (41_framer.md R95, R106) -/

theorem saturate31_toNat (n : Nat) : (saturate31 n).toNat = min n 0x7FFFFFFF := by
  rw [saturate31, BitVec.toNat_ofNat]
  omega

/-- A saturating counter counts as if it had not saturated (10_state.md R30). -/
theorem saturate31_add (n k : Nat) : saturate31 ((saturate31 n).toNat + k) = saturate31 (n + k) := by
  rw [saturate31_toNat]
  unfold saturate31
  congr 1
  omega

theorem budgetSpent_eq_true {s : State} :
    budgetSpent s = true ↔ s.work.mf ≠ 0 ∧ s.work.mf.toNat ≤ s.failcnt.toNat := by
  simp [budgetSpent]

/-- With nothing charged no budget is reached. -/
theorem WithinBudget.zero (f : BitVec 16) : WithinBudget f 0 := by
  rw [WithinBudget, ← BitVec.toNat_inj]
  exact Nat.eq_zero_or_pos _

theorem WithinBudget.mono {f : BitVec 16} {n k : Nat} (h : WithinBudget f (n + k)) : WithinBudget f n :=
  h.imp id (by omega)

section
variable {s : State} {c : Ctl} {m : Memory} {w : Work} {n r k : Nat} {as : List RxAnswer}

@[simp] theorem scan_work : (s.scan c m w n as r).work = w := rfl
@[simp] theorem scan_bufcap : (s.scan c m w n as r).bufcap = s.bufcap := rfl

theorem atLen_toNat (h : k ≤ s.bufcap.toNat) : (w.atLen k).len.toNat = k :=
  Nat.mod_eq_of_lt (Nat.lt_of_le_of_lt h s.bufcap.isLt)

/-- The next read of the framer. -/
theorem issue_rx_scan (c' : Ctl) : issue .rx c' (s.scan c m w n as r) = s.scan c' m w n as (r + 1) := by
  simp [issue, State.scan, rxRequests, List.replicate_succ']

theorem addFailures_scan : addFailures k (s.scan c m w n as r) = s.scan c m w (n + k) as r := by
  simp only [addFailures, State.scan, saturate31_add]

/-- A 16-bit budget is below the bound of the counter, so saturation never hides that it is reached. -/
theorem budgetSpent_scan : budgetSpent (s.scan c m w n as r) = true ↔ ¬ WithinBudget w.mf n := by
  have hlt := w.mf.isLt
  refine budgetSpent_eq_true.trans ?_
  rw [WithinBudget, not_or]
  refine and_congr_right fun _ => ?_
  show w.mf.toNat ≤ (saturate31 n).toNat ↔ _
  rw [saturate31_toNat]
  omega

theorem chargeThenSearch_within (h : WithinBudget w.mf (n + k)) :
    chargeThenSearch k (s.scan c m w n as r) = .next (s.scan .frSearch m w (n + k) as (r + 1)) := by
  have hb : ¬ budgetSpent (s.scan c m w (n + k) as r) = true := fun e => budgetSpent_scan.1 e h
  simp only [chargeThenSearch, addFailures_scan, if_neg hb, gotoSearch, issue_rx_scan]

theorem chargeThenSearch_spent (h : ¬ WithinBudget w.mf (n + k)) :
    chargeThenSearch k (s.scan c m w n as r) = frameNone (s.scan c m w (n + k) as r) := by
  simp only [chargeThenSearch, addFailures_scan, if_pos (budgetSpent_scan.2 h)]

/-! ## One answered read -/

theorem advance_frSearch (a : RxAnswer) : advance (s.scan .frSearch m w n (a :: as) r) =
    andThen (onSearch a (s.scan .frSearch m w n as r)) advance := advance_move rfl

theorem advance_frAccum (a : RxAnswer) : advance (s.scan .frAccum m w n (a :: as) r) =
    andThen (onAccum a (s.scan .frAccum m w n as r)) advance := advance_move rfl

theorem advance_frTail2 (a : RxAnswer) : advance (s.scan .frTail2 m w n (a :: as) r) =
    andThen (onTail2 a (s.scan .frTail2 m w n as r)) advance := advance_move rfl

theorem advance_frTail4 (a : RxAnswer) : advance (s.scan .frTail4 m w n (a :: as) r) =
    andThen (onTail4 a (s.scan .frTail4 m w n as r)) advance := advance_move rfl

/-- A failed read while searching ends the body with no telegram (41_framer.md R107). -/
theorem advance_search_quiet {a : RxAnswer} (ha : a = .empty ∨ a = .error) :
    advance (s.scan .frSearch m w n (a :: as) r) = andThen (frameNone (s.scan .frSearch m w n as r)) advance := by
  rcases ha with rfl | rfl <;> exact advance_frSearch _

/-- A failed read inside a candidate does too (R107). -/
theorem advance_accum_quiet {a : RxAnswer} (ha : a = .empty ∨ a = .error) :
    advance (s.scan .frAccum m w n (a :: as) r) = andThen (frameNone (s.scan .frAccum m w n as r)) advance := by
  rcases ha with rfl | rfl <;> exact advance_frAccum _

/-- A byte other than `'/'` while searching is charged 1 or nothing (R96). -/
theorem advance_noise {b : Byte} (hb : b ≠ chSlash) (h : WithinBudget w.mf n) :
    advance (s.scan .frSearch m w n (.byte b :: as) r) =
      andThen (chargeThenSearch (if s.params.chargeSearch then 1 else 0) (s.scan .frSearch m w n as r)) advance := by
  rw [advance_frSearch, onSearch, if_neg hb]
  by_cases hc : s.params.chargeSearch = true
  · have hc' : (s.scan .frSearch m w n as r).params.chargeSearch = true := hc
    rw [if_pos hc, if_pos hc']
  · have hc' : ¬ (s.scan .frSearch m w n as r).params.chargeSearch = true := hc
    have h0 : WithinBudget w.mf (n + 0) := h
    rw [if_neg hc, if_neg hc', chargeThenSearch_within h0, gotoSearch, issue_rx_scan]
    rfl

/-- The first `'/'` opens a candidate at offset 0 (R96). -/
theorem advance_slash (hcap : 0 < s.bufcap.toNat) : advance (s.scan .frSearch m w n (.byte chSlash :: as) r) =
    advance (s.scan .frAccum (m.write 0 chSlash) (w.atLen 1) n as (r + 1)) := by
  have hw : 0 < (s.scan .frSearch m w n as r).bufcap.toNat := hcap
  rw [advance_frSearch, onSearch, if_pos rfl, bufWrite_inRange hw, andThen_next, andThen_next, ← issue_rx_scan .frAccum]
  rfl

/-- Every byte of a candidate is stored and counted before it is looked at (R97). -/
theorem advance_store {b : Byte} (hk : k < s.bufcap.toNat) :
    advance (s.scan .frAccum m (w.atLen k) n (.byte b :: as) r) =
      andThen (afterStore b (s.scan .frAccum (m.write k b) (w.atLen (k + 1)) n as r)) advance := by
  have hw : k < (s.scan .frAccum m (w.atLen k) n as r).bufcap.toNat := hk
  rw [advance_frAccum, onAccum, scan_work, atLen_toNat (Nat.le_of_lt hk), bufWrite_inRange hw, andThen_next]
  simp only [State.scan, Work.atLen, BitVec.ofNat_add]
  rfl

/-- A stored byte other than `'!'` in a buffer with room for another: the candidate grows (R97). -/
theorem advance_body_byte {b : Byte} (hb : b ≠ chBang) (hk : k + 1 < s.bufcap.toNat) :
    advance (s.scan .frAccum m (w.atLen k) n (.byte b :: as) r) =
      advance (s.scan .frAccum (m.write k b) (w.atLen (k + 1)) n as (r + 1)) := by
  have hne : ¬ (w.atLen (k + 1)).len = s.bufcap := fun e => by
    have hlen := congrArg BitVec.toNat e
    rw [atLen_toNat (Nat.le_of_lt hk)] at hlen
    omega
  rw [advance_store (by omega), afterStore, if_neg hb, scan_work, scan_bufcap, if_neg hne, andThen_next,
    gotoAccum, issue_rx_scan]

/-- The `'!'` ends accumulation (R97). -/
theorem advance_bang (hk : k < s.bufcap.toNat) :
    advance (s.scan .frAccum m (w.atLen k) n (.byte chBang :: as) r) =
      advance (s.scan .frTail2 (m.write k chBang) ((w.atLen (k + 1)).tailed []) n as (r + 1)) := by
  rw [advance_store hk, afterStore, if_pos rfl, andThen_next, ← issue_rx_scan .frTail2]
  rfl

/-- The byte that fills the buffer without being a `'!'`: the candidate is charged whole (R98). -/
theorem advance_filled {b : Byte} (hb : b ≠ chBang) (hk : k + 1 = s.bufcap.toNat) :
    advance (s.scan .frAccum m (w.atLen k) n (.byte b :: as) r) =
      andThen (chargeThenSearch s.bufcap.toNat (s.scan .frAccum (m.write k b) (w.atLen 0) n as r)) advance := by
  have hlen : (w.atLen (k + 1)).len = s.bufcap := BitVec.eq_of_toNat_eq ((atLen_toNat (Nat.le_of_eq hk)).trans hk)
  rw [advance_store (by omega), afterStore, if_neg hb, scan_work, scan_bufcap, if_pos hlen, overflow, scan_work, hlen]
  rfl

/-! ## The tail reads (41_framer.md R99, R102) -/

/-- Both reads of FR_TAIL2 are issued, whatever they answer (R99). -/
theorem advance_tail2 (a1 a2 : RxAnswer) :
    advance (s.scan .frTail2 m (w.tailed []) n (a1 :: a2 :: as) r) =
      andThen (tail2Done (s.scan .frTail2 m (w.tailed [a1, a2]) n as (r + 1))) advance :=
  calc advance (s.scan .frTail2 m (w.tailed []) n (a1 :: a2 :: as) r)
      = advance (issue .rx .frTail2 (s.scan .frTail2 m (w.tailed [a1]) n (a2 :: as) r)) := advance_frTail2 _
    _ = _ := by rw [issue_rx_scan]; exact advance_frTail2 _

/-- All four reads of FR_TAIL4 are issued, whatever they answer (R102). -/
theorem advance_tail4 (a1 a2 a3 a4 a5 a6 : RxAnswer) :
    advance (s.scan .frTail4 m (w.tailed [a1, a2]) n (a3 :: a4 :: a5 :: a6 :: as) r) =
      andThen (tail4Done (s.scan .frTail4 m (w.tailed [a1, a2, a3, a4, a5, a6]) n as (r + 3))) advance :=
  calc advance (s.scan .frTail4 m (w.tailed [a1, a2]) n (a3 :: a4 :: a5 :: a6 :: as) r)
      = advance (issue .rx .frTail4 (s.scan .frTail4 m (w.tailed [a1, a2, a3]) n (a4 :: a5 :: a6 :: as) r)) :=
        advance_frTail4 _
    _ = advance (issue .rx .frTail4 (s.scan .frTail4 m (w.tailed [a1, a2, a3, a4]) n (a5 :: a6 :: as) (r + 1))) := by
        rw [issue_rx_scan]; exact advance_frTail4 _
    _ = advance (issue .rx .frTail4 (s.scan .frTail4 m (w.tailed [a1, a2, a3, a4, a5]) n (a6 :: as) (r + 2))) := by
        rw [issue_rx_scan]; exact advance_frTail4 _
    _ = _ := by rw [issue_rx_scan]; exact advance_frTail4 _

/-- A tail that does not begin with CR is read to its sixth byte (R99, R102). -/
theorem advance_tail_notCr {a1 : RxAnswer} (h1 : a1 ≠ .byte chCr) (a2 a3 a4 a5 a6 : RxAnswer) :
    advance (s.scan .frTail2 m (w.tailed []) n (a1 :: a2 :: a3 :: a4 :: a5 :: a6 :: as) r) =
      andThen (tail4Done (s.scan .frTail4 m (w.tailed [a1, a2, a3, a4, a5, a6]) n as (r + 5))) advance := by
  have hne : ¬ (w.tailed [a1, a2]).tail.head? = some (some chCr) := by
    cases a1 with
    | byte b => simpa [Work.tailed, probeOf] using h1
    | empty | error => exact nofun
  rw [advance_tail2, tail2Done, scan_work, if_neg hne, andThen_next, gotoTail4, issue_rx_scan, advance_tail4]

theorem advance_tail_cr (a : RxAnswer) :
    advance (s.scan .frTail2 m (w.tailed []) n (.byte chCr :: a :: as) r) =
      andThen (legacyCheck (s.scan .frTail2 m (w.tailed [.byte chCr, a]) n as (r + 1))) advance := by
  have hcr : (w.tailed [.byte chCr, a]).tail.head? = some (some chCr) := rfl
  rw [advance_tail2, tail2Done, scan_work, if_pos hcr]

/-- The legacy check (R100). -/
theorem legacyCheck_bytes (t2 : Byte) :
    legacyCheck (s.scan c m (w.tailed [.byte chCr, .byte t2]) n as r) =
      if w.len.toNat + 2 ≤ s.bufcap.toNat then
        acceptTail [chCr, t2] (s.scan c m (w.tailed [.byte chCr, .byte t2]) n as r)
      else invalidCandidate (s.scan c m (w.tailed [.byte chCr, .byte t2]) n as r) := rfl

/-- The check of a CRC-bearing tail (R102). -/
theorem tail4Done_bytes (t1 t2 t3 t4 t5 t6 : Byte) :
    tail4Done (s.scan c m (w.tailed (rxBytes [t1, t2, t3, t4, t5, t6])) n as r) =
      if t5 = chCr ∧ w.len.toNat + 6 ≤ s.bufcap.toNat then
        acceptTail [t1, t2, t3, t4, t5, t6] (s.scan c m (w.tailed (rxBytes [t1, t2, t3, t4, t5, t6])) n as r)
      else invalidCandidate (s.scan c m (w.tailed (rxBytes [t1, t2, t3, t4, t5, t6])) n as r) := rfl

/-- A tail read that brought no byte makes the candidate invalid (R102). -/
theorem tail4Done_missing {a1 a2 a3 a4 a5 a6 : RxAnswer}
    (h : ¬ ∀ a ∈ [a1, a2, a3, a4, a5, a6], ∃ b, a = .byte b) :
    tail4Done (s.scan c m (w.tailed [a1, a2, a3, a4, a5, a6]) n as r) =
      invalidCandidate (s.scan c m (w.tailed [a1, a2, a3, a4, a5, a6]) n as r) := by
  unfold tail4Done
  split
  next t1 t2 t3 t4 t5 t6 htail =>
    refine absurd (fun a ha => ?_) h
    have hp : probeOf a ∈ [some t1, some t2, some t3, some t4, some t5, some t6] := by
      rw [← htail]
      exact List.mem_map_of_mem ha
    cases a with
    | byte b => exact ⟨b, rfl⟩
    | empty | error => simp [probeOf] at hp
  next => rfl

/-- A tail that fits is stored behind the `'!'`, and the telegram is found (R100, R102). -/
theorem acceptTail_scan {t : List Byte} {l : List RxAnswer} (h : k + t.length ≤ s.bufcap.toNat) :
    acceptTail t (s.scan c m ((w.atLen k).tailed l) n as r) =
      frameFound (BitVec.ofNat 16 (k + t.length))
        (s.scan c (m.writeAll k t) ((w.atLen (k + t.length)).tailed l) n as r) := by
  have hlen : (s.scan c m ((w.atLen k).tailed l) n as r).work.len.toNat = k := atLen_toNat (s := s) (w := w) (by omega)
  have hw : bufWriteAll k t (s.scan c m ((w.atLen k).tailed l) n as r) =
      .next (s.scan c (m.writeAll k t) ((w.atLen k).tailed l) n as r) := bufWriteAll_eq_next.2 ⟨.inr h, rfl⟩
  rw [acceptTail, hlen, hw, andThen_next]
  simp only [State.scan, Work.atLen, Work.tailed, BitVec.ofNat_add]

/-- A candidate whose tail fails is charged its length and the bytes the tail reads brought (R103). -/
theorem invalidCandidate_scan {l : List RxAnswer} (h : k ≤ s.bufcap.toNat) :
    invalidCandidate (s.scan c m ((w.atLen k).tailed l) n as r) =
      chargeThenSearch (k + byteCount l) (s.scan c m ((w.atLen 0).tailed l) n as r) := by
  have hlen : (s.scan c m ((w.atLen k).tailed l) n as r).work.len.toNat = k := atLen_toNat (w := w) h
  rw [invalidCandidate, hlen, ← countBytes_map_probeOf]
  rfl

/-! ## A candidate -/

/-- The bytes before the `'!'` are stored one after another (R97). -/
theorem advance_body {body : List Byte} (hb : chBang ∉ body) (hk : k + body.length < s.bufcap.toNat) :
    advance (s.scan .frAccum m (w.atLen k) n (rxBytes body ++ as) r) =
      advance (s.scan .frAccum (m.writeAll k body) (w.atLen (k + body.length)) n as (r + body.length)) := by
  induction body generalizing m k r with
  | nil => rfl
  | cons b body ih =>
    rw [List.length_cons] at hk
    rw [List.mem_cons, not_or] at hb
    rw [rxBytes_cons, List.cons_append, advance_body_byte (Ne.symm hb.1) (by omega), ih hb.2 (by omega),
      List.length_cons, Memory.writeAll_cons, Nat.add_assoc k, Nat.add_comm 1, Nat.add_assoc r, Nat.add_comm 1]

/-- A candidate that fits with room for one byte more is accumulated (R96, R97). -/
theorem advance_candidate {body : List Byte} (hb : chBang ∉ body) (hlen : body.length + 1 < s.bufcap.toNat) :
    advance (s.scan .frSearch m w n (rxBytes (chSlash :: body) ++ as) r) =
      advance (s.scan .frAccum (m.writeAll 0 (chSlash :: body)) (w.atLen (body.length + 1)) n as
        (r + (body.length + 1))) := by
  rw [rxBytes_cons, List.cons_append, advance_slash (by omega), advance_body hb (by omega), Memory.writeAll_cons,
    Nat.add_comm 1, Nat.add_assoc r, Nat.add_comm 1]

/-- A candidate and its `'!'`: the tail reads begin (R97, R99). -/
theorem advance_ended {body : List Byte} (hb : chBang ∉ body) (hlen : body.length + 2 ≤ s.bufcap.toNat) :
    advance (s.scan .frSearch m w n (rxBytes (chSlash :: body ++ [chBang]) ++ as) r) =
      advance (s.scan .frTail2 (m.writeAll 0 (chSlash :: body ++ [chBang])) ((w.atLen (body.length + 2)).tailed []) n as
        (r + (body.length + 2))) := by
  rw [rxBytes_append, List.append_assoc, advance_candidate hb (by omega), Memory.writeAll_append, Nat.zero_add]
  exact advance_bang (s := s) (w := w) (k := body.length + 1) (by omega)

/-- A candidate that fills the buffer without a `'!'` is charged whole (R98). -/
theorem advance_overflow {body : List Byte} (hb : chBang ∉ body) (hlen : body.length + 1 = s.bufcap.toNat)
    (hcap : 8 ≤ s.bufcap.toNat) :
    advance (s.scan .frSearch m w n (rxBytes (chSlash :: body) ++ as) (r + 1)) =
      andThen (chargeThenSearch s.bufcap.toNat
        (s.scan .frAccum (m.writeAll 0 (chSlash :: body)) (w.atLen 0) n as (r + s.bufcap.toNat))) advance := by
  obtain ⟨init, b, rfl⟩ : ∃ init b, body = init ++ [b] :=
    ⟨_, _, (List.dropLast_append_getLast (List.ne_nil_of_length_pos (by omega))).symm⟩
  rw [List.length_append, List.length_singleton] at hlen
  rw [List.mem_append, List.mem_singleton, not_or] at hb
  rw [← List.cons_append, rxBytes_append, List.append_assoc, advance_candidate hb.1 (by omega), Memory.writeAll_append,
    Nat.zero_add, show r + s.bufcap.toNat = r + 1 + (init.length + 1) by omega]
  exact advance_filled (s := s) (w := w) (k := init.length + 1) (Ne.symm hb.2) hlen

end

end Sys2Proof.Machine
end

section
/-! The framer on a whole piece of the stream: what it discards, the telegram it finds, and a stream without one
(41_framer.md R98 to R107), over the wire definitions `Discarded`, `Framed` and `Fruitless`. -/

namespace Sys2Proof.Machine

section
variable {s : State} {m : Memory} {w : Work} {n r : Nat} {as : List RxAnswer}

/-! ## Discarded pieces -/

/-- A tail that completes no telegram is read to its end and its candidate is invalid (R99 to R103). -/
theorem TailRejected.invalid {k : Nat} {tail : List RxAnswer} (h : TailRejected s.bufcap.toNat k tail)
    (hk : k ≤ s.bufcap.toNat) :
    ∃ c, advance (s.scan .frTail2 m ((w.atLen k).tailed []) n (tail ++ as) (r + 1)) =
      andThen (invalidCandidate (s.scan c m ((w.atLen k).tailed tail) n as (r + tail.length))) advance := by
  cases h with
  | legacy a h =>
    refine ⟨.frTail2, (advance_tail_cr a).trans (congrArg (andThen · advance) ?_)⟩
    cases a with
    | byte b => exact (legacyCheck_bytes b).trans (if_neg (by rw [atLen_toNat hk]; exact Nat.not_le.2 (h ⟨b, rfl⟩)))
    | empty | error => rfl
  | crcBearing a1 a2 a3 a4 a5 a6 h1 h =>
    refine ⟨.frTail4, (advance_tail_notCr h1 a2 a3 a4 a5 a6).trans (congrArg (andThen · advance) ?_)⟩
    by_cases hall : ∀ a ∈ [a1, a2, a3, a4, a5, a6], ∃ b, a = .byte b
    · have hfull := h hall
      simp only [List.forall_mem_cons] at hall
      obtain ⟨⟨t1, rfl⟩, ⟨t2, rfl⟩, ⟨t3, rfl⟩, ⟨t4, rfl⟩, ⟨t5, rfl⟩, ⟨t6, rfl⟩, -⟩ := hall
      refine (tail4Done_bytes t1 t2 t3 t4 t5 t6).trans (if_neg ?_)
      rw [atLen_toNat hk]
      exact fun ⟨hcr, hle⟩ => Nat.not_le.2 (hfull (congrArg RxAnswer.byte hcr)) hle
    · exact tail4Done_missing hall

/-- A discarded piece comes to the charge for it (R96, R98, R103). -/
theorem DiscardedPiece.charged {l : List RxAnswer} {k : Nat} (h : DiscardedPiece s.params s.bufcap.toNat l k)
    (hcap : 8 ≤ s.bufcap.toNat) (hb : WithinBudget w.mf n) :
    ∃ c m' w', Carried s.bufcap.toNat m w m' w' ∧ advance (s.scan .frSearch m w n (l ++ as) (r + 1)) =
      andThen (chargeThenSearch k (s.scan c m' w' n as (r + l.length))) advance := by
  cases h with
  | noise b hne => exact ⟨.frSearch, m, w, .refl .., advance_noise hne hb⟩
  | overflow body hbang hlen =>
    exact ⟨.frAccum, m.writeAll 0 (chSlash :: body), w.atLen 0, ⟨rfl, rfl, .writeAll m (Nat.le_of_eq hlen)⟩, by
      rw [advance_overflow hbang hlen hcap, rxBytes_length, List.length_cons, hlen]⟩
  | badTail body tail hbang hlen ht =>
    obtain ⟨c, hc⟩ := ht.invalid (m := m.writeAll 0 (chSlash :: body ++ [chBang])) (w := w) (n := n) (as := as)
      (r := r + (body.length + 2)) hlen
    refine ⟨c, m.writeAll 0 (chSlash :: body ++ [chBang]), (w.atLen 0).tailed tail, ⟨rfl, rfl, .writeAll m ?_⟩, ?_⟩
    · rwa [List.length_append]
    · rw [List.append_assoc, advance_ended hbang hlen, Nat.add_right_comm, hc, invalidCandidate_scan hlen,
        List.length_append, rxBytes_length, Nat.add_assoc r, List.length_append]
      rfl

/-- The framer discards within the budget and goes on searching (R95, R104). -/
theorem Discarded.searching {l : List RxAnswer} {k : Nat} (h : Discarded s.params s.bufcap.toNat l k)
    (hcap : 8 ≤ s.bufcap.toNat) (hb : WithinBudget w.mf (n + k)) :
    ∃ m' w', Carried s.bufcap.toNat m w m' w' ∧ advance (s.scan .frSearch m w n (l ++ as) (r + 1)) =
      advance (s.scan .frSearch m' w' (n + k) as (r + l.length + 1)) := by
  induction h generalizing m w n r with
  | nil => exact ⟨m, w, .refl .., rfl⟩
  | @cons l l' k k' hl hm ih =>
    rw [← Nat.add_assoc] at hb
    obtain ⟨c, m1, w1, hc1, h1⟩ := hl.charged (as := l' ++ as) (m := m) (r := r) hcap hb.mono.mono
    have hb1 : WithinBudget w1.mf (n + k + k') := hc1.mf ▸ hb
    obtain ⟨m2, w2, hc2, h2⟩ := ih (m := m1) (r := r + l.length) hb1
    refine ⟨m2, w2, hc1.trans hc2, ?_⟩
    rw [List.append_assoc, h1, chargeThenSearch_within hb1.mono, andThen_next, h2, List.length_append, Nat.add_assoc n,
      Nat.add_assoc r]

/-! ## Noise -/

/-- What the framer charges for `k` bytes discarded while searching (R96). -/
def noiseCharge (p : Params) (k : Nat) : Nat := if p.chargeSearch then k else 0

theorem noiseCharge_succ (p : Params) (k : Nat) : noiseCharge p (k + 1) = noiseCharge p 1 + noiseCharge p k := by
  unfold noiseCharge
  split
  · exact Nat.add_comm k 1
  · rfl

theorem searchCharge_eq (p : Params) (k : Nat) : searchCharge p k = saturate31 (noiseCharge p k) := by
  unfold searchCharge noiseCharge
  split <;> rfl

theorem searchWithinBudget_iff {p : Params} {maxfail : BitVec 16} {k : Nat} :
    searchWithinBudget p maxfail k ↔ WithinBudget maxfail (noiseCharge p k) := by
  unfold searchWithinBudget noiseCharge
  split
  case isTrue hc => exact ⟨fun h => h hc, fun h _ => h⟩
  case isFalse hc => exact iff_of_true (fun h => absurd h hc) (.zero maxfail)

/-- Bytes other than `'/'` leave the buffer and the working registers alone (R96). -/
theorem advance_noises {noise : List Byte} (hn : chSlash ∉ noise)
    (hb : WithinBudget w.mf (n + noiseCharge s.params noise.length)) :
    advance (s.scan .frSearch m w n (rxBytes noise ++ as) (r + 1)) =
      advance (s.scan .frSearch m w (n + noiseCharge s.params noise.length) as (r + noise.length + 1)) := by
  induction noise generalizing n r with
  | nil => simp [noiseCharge, rxBytes]
  | cons b noise ih =>
    rw [List.length_cons, noiseCharge_succ _ noise.length, ← Nat.add_assoc] at hb
    rw [List.mem_cons, not_or] at hn
    rw [rxBytes_cons, List.cons_append, advance_noise (Ne.symm hn.1) hb.mono.mono]
    refine (congrArg (andThen · advance) (chargeThenSearch_within hb.mono)).trans ?_
    rw [andThen_next]
    refine (ih hn.2 hb).trans ?_
    rw [List.length_cons, noiseCharge_succ _ noise.length, Nat.add_assoc n, Nat.add_assoc r, Nat.add_comm 1]

/-! ## The telegram -/

/-- A candidate that fits, with a tail that the tail reads accept, is found. -/
theorem advance_found {body t : List Byte} (hb : chBang ∉ body) (hcap : body.length + 2 + t.length ≤ s.bufcap.toNat)
    (ht : ∀ m r, ∃ c l,
      advance (s.scan .frTail2 m ((w.atLen (body.length + 2)).tailed []) n (rxBytes t ++ as) (r + 1)) =
        andThen (acceptTail t (s.scan c m ((w.atLen (body.length + 2)).tailed l) n as (r + t.length))) advance) :
    ∃ c w', Carried s.bufcap.toNat m w (m.writeAll 0 (chSlash :: body ++ chBang :: t)) w' ∧
      advance (s.scan .frSearch m w n (rxBytes (chSlash :: body ++ chBang :: t) ++ as) (r + 1)) =
        andThen (frameFound (BitVec.ofNat 16 (chSlash :: body ++ chBang :: t).length)
          (s.scan c (m.writeAll 0 (chSlash :: body ++ chBang :: t)) w' n as
            (r + (chSlash :: body ++ chBang :: t).length))) advance := by
  obtain ⟨c, l, hc⟩ := ht (m.writeAll 0 (chSlash :: body ++ [chBang])) (r + (body.length + 2))
  have hsplit : chSlash :: body ++ chBang :: t = (chSlash :: body ++ [chBang]) ++ t := by simp
  have hhead : (chSlash :: body ++ [chBang]).length = body.length + 2 := by simp
  rw [hsplit, List.length_append, hhead]
  refine ⟨c, (w.atLen (body.length + 2 + t.length)).tailed l, ⟨rfl, rfl, .writeAll m ?_⟩, ?_⟩
  · rw [List.length_append, hhead]
    exact hcap
  · rw [rxBytes_append, List.append_assoc, advance_ended hb (by omega), Nat.add_right_comm, hc, acceptTail_scan hcap,
      Memory.writeAll_append m 0 (chSlash :: body ++ [chBang]) t, Nat.zero_add, hhead, Nat.add_assoc r]

/-- A telegram that fits is found, stored from offset 0, and nothing is charged (R99 to R102). -/
theorem Framed.found {tel : List Byte} (h : Framed tel) (hcap : tel.length ≤ s.bufcap.toNat) :
    ∃ c w', Carried s.bufcap.toNat m w (m.writeAll 0 tel) w' ∧
      advance (s.scan .frSearch m w n (rxBytes tel ++ as) (r + 1)) =
        andThen (frameFound (BitVec.ofNat 16 tel.length) (s.scan c (m.writeAll 0 tel) w' n as (r + tel.length)))
          advance := by
  cases h with
  | legacy body t2 hb =>
    have hfit : body.length + 4 ≤ s.bufcap.toNat := by rwa [List.length_append] at hcap
    refine advance_found (t := [chCr, t2]) hb hfit fun m r => ⟨.frTail2, rxBytes [chCr, t2], ?_⟩
    refine (advance_tail_cr _).trans (congrArg (andThen · advance) ?_)
    exact (legacyCheck_bytes t2).trans (if_pos (by rw [atLen_toNat (s := s) (by omega)]; exact hfit))
  | crcBearing body t1 t2 t3 t4 t6 hb ht =>
    have hfit : body.length + 8 ≤ s.bufcap.toNat := by rwa [List.length_append] at hcap
    have h1 : RxAnswer.byte t1 ≠ .byte chCr := fun e => ht (RxAnswer.byte.inj e)
    refine advance_found (t := [t1, t2, t3, t4, chCr, t6]) hb hfit fun m r =>
      ⟨.frTail4, rxBytes [t1, t2, t3, t4, chCr, t6], ?_⟩
    refine (advance_tail_notCr h1 _ _ _ _ _).trans (congrArg (andThen · advance) ?_)
    exact (tail4Done_bytes t1 t2 t3 t4 chCr t6).trans
      (if_pos ⟨rfl, by rw [atLen_toNat (s := s) (by omega)]; exact hfit⟩)

/-! ## A stream without a telegram -/

/-- A stream that goes quiet, or spends the budget, ends the body with no telegram (R106, R107). -/
theorem Fruitless.findsNothing {stream : List RxAnswer} {k : Nat}
    (h : Fruitless s.params s.bufcap.toNat w.mf stream k) (hcap : 8 ≤ s.bufcap.toNat) :
    ∃ c m' w', Carried s.bufcap.toNat m w m' w' ∧ advance (s.scan .frSearch m w 0 (stream ++ as) 1) =
      andThen (frameNone (s.scan c m' w' k as stream.length)) advance := by
  cases h with
  | @quietSearching junk n a hj hb ha =>
    obtain ⟨m1, w1, hc, h1⟩ := hj.searching (m := m) (w := w) (n := 0) (r := 0) (as := a :: as) hcap (by simpa using hb)
    refine ⟨.frSearch, m1, w1, hc, ?_⟩
    rw [List.append_assoc]
    refine h1.trans ?_
    rw [advance_search_quiet ha, Nat.zero_add, Nat.zero_add, List.length_append, List.length_singleton]
  | @quietAccumulating junk n body a hj hb hbang hlen ha =>
    obtain ⟨m1, w1, hc, h1⟩ := hj.searching (m := m) (w := w) (n := 0) (r := 0)
      (as := rxBytes (chSlash :: body) ++ a :: as) hcap (by simpa using hb)
    refine ⟨.frAccum, m1.writeAll 0 (chSlash :: body), w1.atLen (body.length + 1),
      hc.trans ⟨rfl, rfl, .writeAll m1 (Nat.le_of_lt hlen)⟩, ?_⟩
    rw [List.append_assoc, List.append_assoc]
    refine h1.trans ?_
    rw [advance_candidate hbang hlen, advance_accum_quiet ha, Nat.zero_add, Nat.zero_add]
    simp only [List.length_append, rxBytes_length, List.length_cons, List.length_nil]
    congr 3
    omega
  | @budgetSpent junk piece n k hj hp hm hb hk =>
    obtain ⟨m1, w1, hc1, h1⟩ := hj.searching (m := m) (w := w) (n := 0) (r := 0) (as := piece ++ as) hcap
      (.inr (by simpa using hb))
    have hb1 : WithinBudget w1.mf (0 + n) := .inr (by rw [hc1.mf]; omega)
    obtain ⟨c, m2, w2, hc2, h2⟩ := hp.charged (m := m1) (r := 0 + junk.length) (as := as) hcap hb1
    have hspent : ¬ WithinBudget w2.mf (0 + n + k) := by
      rw [hc2.mf, hc1.mf, WithinBudget, not_or]
      exact ⟨hm, by omega⟩
    refine ⟨c, m2, w2, hc1.trans hc2, ?_⟩
    rw [List.append_assoc]
    refine (h1.trans h2).trans ?_
    rw [chargeThenSearch_spent hspent, Nat.zero_add, Nat.zero_add, List.length_append]

end

end Sys2Proof.Machine
end

section
/-! FRAME_READ by itself: how it begins and ends, and its settled statements about whole streams (41_framer.md R94 to
R110). -/

namespace Sys2Proof.Machine

/-! ## The beginning and the two ends of FRAME_READ -/

/-- The internal registers FRAME_READ starts with (41_framer.md R95). -/
def Work.frameEntry (w : Work) (maxfail : BitVec 16) : Work := { w with inRead := false, mf := maxfail, len := 0 }

section
variable {s : State} (hs : Ready s)
include hs

/-- FRAME_READ of an open session begins to search with nothing charged and one read issued (R95, R96). -/
theorem exec_frameRead :
    exec .frameRead s = advance (s.scan .frSearch s.buf (s.work.frameEntry s.maxfail) 0 s.env.rx 1) := by
  obtain ⟨hidle, hopen⟩ := hs
  calc exec .frameRead s
      = whenIdle s fun s => whenOpen s fun s =>
          advance (frameEntry { s with work := { s.work with inRead := false } }) := rfl
    _ = advance (frameEntry { s with work := { s.work with inRead := false } }) := by
        rw [whenIdle_idle hidle, whenOpen_open hopen]
    _ = _ := rfl

variable {c : Ctl} {m : Memory} {w : Work} {n r : Nat} {as : List RxAnswer} (hi : w.inRead = false)
include hi

/-- Outside READ a telegram's length is the response (R100, R102). -/
theorem frameFound_standalone (v : BitVec 16) :
    andThen (frameFound v (s.scan c m w n as r)) advance = .next { s with
      buf := m
      work := w
      lastLen := v
      failcnt := saturate31 n
      result := BitVec.ofNat 32 v.toNat
      env := { s.env with rx := as }
      out := s.out ++ rxRequests r ++ [.response (BitVec.ofNat 32 v.toNat)] } := by
  have hi' : ¬ (s.scan c m w n as r).work.inRead = true := Bool.eq_false_iff.1 hi
  rw [frameFound, if_neg hi', succeed_eq, andThen_next, advance_idle rfl]
  simp only [respond, answer, State.scan, ← hs.1]

/-- Outside READ no telegram is the response 0 (R106, R107). -/
theorem frameNone_standalone :
    andThen (frameNone (s.scan c m w n as r)) advance = .next { s with
      buf := m
      work := w
      lastLen := 0
      failcnt := saturate31 n
      result := 0
      env := { s.env with rx := as }
      out := s.out ++ rxRequests r ++ [.response 0] } := by
  have hi' : ¬ (s.scan c m w n as r).work.inRead = true := Bool.eq_false_iff.1 hi
  rw [frameNone, if_neg hi', succeed_eq, andThen_next, advance_idle rfl]
  simp only [respond, answer, State.scan, ← hs.1]
  rfl

end

/-- The length of what fits the buffer is its own 16-bit length. -/
theorem ofNat_length_toNat {l : List Byte} {cap : BitVec 16} (h : l.length ≤ cap.toNat) :
    (BitVec.ofNat 16 l.length).toNat = l.length :=
  Nat.mod_eq_of_lt (Nat.lt_of_le_of_lt h cap.isLt)

/-- Outside READ a failed read while searching or inside a candidate ends the command in one move (R107). -/
theorem move_quiet {s : State} {a : RxAnswer} {rest : List RxAnswer} (hc : s.ctl = .frSearch ∨ s.ctl = .frAccum)
    (ha : a = .empty ∨ a = .error) (hrx : s.env.rx = a :: rest) :
    move s = some (frameNone { s with env := { s.env with rx := rest } }) := by
  rcases hc with hc | hc
  · have hm : move s = onRx onSearch s := by simp only [move, hc]
    exact hm.trans (onRx_eq_some.2 ⟨a, rest, hrx, by rcases ha with rfl | rfl <;> rfl⟩)
  · have hm : move s = onRx onAccum s := by simp only [move, hc]
    exact hm.trans (onRx_eq_some.2 ⟨a, rest, hrx, by rcases ha with rfl | rfl <;> rfl⟩)

end Sys2Proof.Machine

namespace Sys2Proof.Proofs

open Sys2Proof.Machine

/-- Settles O24: the noise leaves the buffer alone (`advance_noises`), and the telegram is found behind it
(`Framed.found`). -/
theorem frameReadDeliversTheFirstTelegram : Obligations.FrameReadDeliversTheFirstTelegram := by
  intro s noise tel rest hs hnoise hframed hcap hbudget hrx
  have hb : WithinBudget (s.work.frameEntry s.maxfail).mf (0 + noiseCharge s.params noise.length) := by
    rw [Nat.zero_add]
    exact searchWithinBudget_iff.1 hbudget
  obtain ⟨c, w, hw, hfound⟩ := hframed.found (m := s.buf) (w := s.work.frameEntry s.maxfail) (as := rest)
    (n := 0 + noiseCharge s.params noise.length) (r := 0 + noise.length) hcap
  refine ⟨s.buf.writeAll 0 tel, w, ?_, Holds.writeAll _ _ _, .writeAll _ (Nat.le_refl _)⟩
  calc exec .frameRead s
      = advance (s.scan .frSearch s.buf (s.work.frameEntry s.maxfail) 0
          (rxBytes noise ++ (rxBytes tel ++ rest)) (0 + 1)) := by
        rw [exec_frameRead hs, hrx, List.append_assoc]
    _ = _ := (advance_noises hnoise hb).trans hfound
    _ = _ := frameFound_standalone hs hw.inRead _
    _ = _ := by rw [ofNat_length_toNat hcap, searchCharge_eq, Nat.zero_add, Nat.zero_add]

/-- Settles O25: the framer goes on searching behind what it discards (`Discarded.searching`), and finds the telegram
there. -/
theorem frameReadRecovers : Obligations.FrameReadRecovers := by
  intro s junk n tel rest hs hcap8 hjunk hbudget hframed hcap hrx
  obtain ⟨m1, w1, hc1, hsearch⟩ := hjunk.searching (m := s.buf) (w := s.work.frameEntry s.maxfail) (n := 0) (r := 0)
    (as := rxBytes tel ++ rest) hcap8 (by rw [Nat.zero_add]; exact hbudget)
  obtain ⟨c, w2, hc2, hfound⟩ := hframed.found (m := m1) (w := w1) (as := rest) (n := 0 + n) (r := 0 + junk.length) hcap
  have hc := hc1.trans hc2
  refine ⟨m1.writeAll 0 tel, w2, ?_, Holds.writeAll _ _ _, hc.beyond⟩
  calc exec .frameRead s
      = advance (s.scan .frSearch s.buf (s.work.frameEntry s.maxfail) 0 (junk ++ (rxBytes tel ++ rest)) (0 + 1)) := by
        rw [exec_frameRead hs, hrx, List.append_assoc]
    _ = _ := hsearch.trans hfound
    _ = _ := frameFound_standalone hs hc.inRead _
    _ = _ := by rw [ofNat_length_toNat hcap, Nat.zero_add, Nat.zero_add]

/-- Settles O26: the stream ends the body without a telegram (`Fruitless.findsNothing`). -/
theorem frameReadFindsNothing : Obligations.FrameReadFindsNothing := by
  intro s stream rest n hs hcap hstream hrx
  obtain ⟨c, m, w, hc, hnone⟩ :=
    Fruitless.findsNothing (m := s.buf) (w := s.work.frameEntry s.maxfail) (as := rest) hstream hcap
  refine ⟨m, w, ?_, hc.beyond⟩
  rw [exec_frameRead hs, hrx, hnone, frameNone_standalone hs hc.inRead]

/-- Settles O27: one move, and the command has ended. -/
theorem quietStreamEndsFrameRead : Obligations.QuietStreamEndsFrameRead := by
  intro s a rest hc hi ha hrx
  have hbusy : s.ctl ≠ .idle := by rcases hc with hc | hc <;> simp [hc]
  rw [step_running hbusy, advance_move (move_quiet hc ha hrx), frameNone, if_neg (Bool.eq_false_iff.1 hi), succeed_eq,
    andThen_next, advance_idle rfl]
  rfl

/-- Settles O28: the noise is searched through uncharged, and the next read is not answered. -/
theorem streamWithoutSlashHangs : Obligations.StreamWithoutSlashHangs := by
  intro s noise hs hcharge hnoise hrx
  have hfree : noiseCharge s.params noise.length = 0 := if_neg (by simp [hcharge])
  have hb : WithinBudget (s.work.frameEntry s.maxfail).mf (0 + noiseCharge s.params noise.length) := by
    rw [hfree]
    exact .zero _
  refine ⟨s.work.frameEntry s.maxfail, ?_⟩
  calc exec .frameRead s
      = advance (s.scan .frSearch s.buf (s.work.frameEntry s.maxfail) 0 (rxBytes noise ++ []) (0 + 1)) := by
        rw [exec_frameRead hs, hrx, List.append_nil]
    _ = _ := advance_noises hnoise hb
    _ = _ := advance_wait rfl
    _ = _ := by rw [hfree, Nat.zero_add, Nat.zero_add]; rfl

end Sys2Proof.Proofs
end

section
/-! What a positive response of FRAME_READ says of the buffer (41_framer.md R105): the invariant says what each control
state of the framer has stored, so a command that ends with a length ends with a telegram in the buffer. -/

namespace Sys2Proof.Machine

/-! ## The candidate in the buffer -/

/-- A held string and the byte behind it. -/
theorem Holds.snoc {m : Memory} {l : List Byte} {b : Byte} (h : Holds m 0 l) (hb : m.read l.length = some b) :
    Holds m 0 (l ++ [b]) := by
  intro j hj
  rw [List.length_append, List.length_singleton] at hj
  rcases Nat.lt_or_eq_of_le (Nat.le_of_lt_succ hj) with hlt | rfl
  · rw [List.getElem_append_left hlt]
    exact h j hlt
  · simpa using hb

/-- What the invariant says of a candidate that has seen its `'!'`, as a string (R97). -/
theorem Ended.holds {m : Memory} {n : Nat} (h : Ended m n) :
    ∃ body, chBang ∉ body ∧ body.length + 2 = n ∧ Holds m 0 (chSlash :: body ++ [chBang]) := by
  obtain ⟨h2, ⟨hslash, hbody⟩, hbang⟩ := h
  have hwritten : ∀ i, i < n - 1 → (m.read i).isSome := fun i hi => by
    obtain ⟨b, hb, -⟩ := hbody i hi
    rw [hb]; rfl
  obtain ⟨l, hlen, hl⟩ := exists_holds_of_written hwritten
  cases l with
  | nil => rw [List.length_nil] at hlen; omega
  | cons x body =>
    have hx : x = chSlash := by
      have hr := hl.read (i := 0) (Nat.zero_lt_succ _)
      rw [hslash] at hr
      exact (Option.some.inj hr).symm
    subst hx
    rw [List.length_cons] at hlen
    refine ⟨body, fun hmem => ?_, by omega, hl.snoc (by rw [List.length_cons, hlen, hbang])⟩
    obtain ⟨i, hi, hbi⟩ := List.getElem_of_mem hmem
    obtain ⟨b, hb, hne⟩ := hbody (i + 1) (by omega)
    have hr := hl.read (i := i + 1) (Nat.succ_lt_succ hi)
    rw [hb, List.getElem?_cons_succ, List.getElem?_eq_getElem hi, hbi] at hr
    exact hne (Option.some.inj hr)

/-! ## How the framer's handlers leave FRAME_READ -/

/-- A control state of the framer. -/
def Ctl.frames : Ctl → Bool
  | .frSearch | .frAccum | .frTail2 | .frTail4 => true
  | _ => false

/-- The buffer holds a telegram, and LAST_LEN and RESULT hold its length. -/
def Delivered (s : State) : Prop :=
  ∃ tel, Framed tel ∧ tel.length ≤ s.bufcap.toNat ∧ Holds s.buf 0 tel ∧ s.lastLen = BitVec.ofNat 16 tel.length ∧
    s.result = BitVec.ofNat 32 tel.length

/-- FRAME_READ goes on, or has ended with the response 0 or a telegram. -/
def FrameOutcome (s : State) : Prop :=
  (s.ctl.frames = true ∧ s.work.inRead = false) ∨ (s.ctl = .idle ∧ (s.result = 0 ∨ Delivered s))

section
variable {s t : State}

theorem frameNone_outcome (h : frameNone s = .next t) (hi : s.work.inRead = false) : FrameOutcome t := by
  rw [frameNone, if_neg (Bool.eq_false_iff.1 hi)] at h
  cases h
  exact .inr ⟨rfl, .inl rfl⟩

theorem chargeThenSearch_outcome {k : Nat} (h : chargeThenSearch k s = .next t) (hi : s.work.inRead = false) :
    FrameOutcome t := by
  unfold chargeThenSearch at h
  dsimp only at h
  split at h
  · exact frameNone_outcome h hi
  · cases h; exact .inl ⟨rfl, hi⟩

theorem onSearch_outcome {a : RxAnswer} (h : onSearch a s = .next t) (hi : s.work.inRead = false) : FrameOutcome t := by
  cases a with
  | byte b =>
    simp only [onSearch] at h
    split at h
    · obtain ⟨s1, h1, h2⟩ := andThen_eq_next.1 h
      obtain ⟨-, rfl⟩ := bufWrite_eq_next.1 h1
      cases h2
      exact .inl ⟨rfl, hi⟩
    · split at h
      · exact chargeThenSearch_outcome h hi
      · cases h; exact .inl ⟨rfl, hi⟩
  | empty | error => exact frameNone_outcome h hi

theorem afterStore_outcome {b : Byte} (h : afterStore b s = .next t) (hi : s.work.inRead = false) : FrameOutcome t := by
  unfold afterStore at h
  split at h
  · cases h; exact .inl ⟨rfl, hi⟩
  · split at h
    · exact chargeThenSearch_outcome h hi
    · cases h; exact .inl ⟨rfl, hi⟩

theorem onAccum_outcome {a : RxAnswer} (h : onAccum a s = .next t) (hi : s.work.inRead = false) : FrameOutcome t := by
  cases a with
  | byte b =>
    obtain ⟨s1, h1, h2⟩ := andThen_eq_next.1 h
    obtain ⟨-, rfl⟩ := bufWrite_eq_next.1 h1
    exact afterStore_outcome h2 hi
  | empty | error => exact frameNone_outcome h hi

theorem invalidCandidate_outcome (h : invalidCandidate s = .next t) (hi : s.work.inRead = false) : FrameOutcome t :=
  chargeThenSearch_outcome h hi

/-- A tail that makes the candidate in the buffer a telegram is stored behind it and delivered (R100, R102). -/
theorem acceptTail_outcome {cand l : List Byte} (h : acceptTail l s = .next t) (hi : s.work.inRead = false)
    (hc : Holds s.buf 0 cand) (hlen : cand.length = s.work.len.toNat) (hl : l ≠ []) (hf : Framed (cand ++ l)) :
    FrameOutcome t := by
  obtain ⟨s1, h1, h2⟩ := andThen_eq_next.1 h
  obtain ⟨hcap, rfl⟩ := bufWriteAll_eq_next.1 h1
  have hfit : (cand ++ l).length ≤ s.bufcap.toNat := by
    rw [List.length_append, hlen]
    exact hcap.resolve_left hl
  have hv : s.work.len + BitVec.ofNat 16 l.length = BitVec.ofNat 16 (cand ++ l).length := by
    rw [List.length_append, BitVec.ofNat_add, hlen, BitVec.ofNat_toNat, BitVec.setWidth_eq]
  rw [hv, frameFound, if_neg (Bool.eq_false_iff.1 hi), succeed_eq, ofNat_length_toNat hfit] at h2
  cases h2
  refine .inr ⟨rfl, .inr ⟨cand ++ l, hf, hfit, ?_, rfl, rfl⟩⟩
  show Holds (s.buf.writeAll s.work.len.toNat l) 0 (cand ++ l)
  rw [← hlen]
  exact hc.append l

theorem legacyCheck_outcome (h : legacyCheck s = .next t) (hi : s.work.inRead = false)
    (he : Ended s.buf s.work.len.toNat) : FrameOutcome t := by
  unfold legacyCheck at h
  split at h
  next t1 t2 htail =>
    split at h
    next =>
      obtain ⟨body, hb, hlen, hc⟩ := he.holds
      refine acceptTail_outcome h hi hc (by simpa using hlen) (List.cons_ne_nil _ _) ?_
      simpa using Framed.legacy body t2 hb
    next => exact invalidCandidate_outcome h hi
  next => exact invalidCandidate_outcome h hi

theorem tail4Done_outcome (h : tail4Done s = .next t) (hi : s.work.inRead = false)
    (he : Ended s.buf s.work.len.toNat) (hcr : s.work.tail.head? ≠ some (some chCr)) : FrameOutcome t := by
  unfold tail4Done at h
  split at h
  next t1 t2 t3 t4 t5 t6 htail =>
    split at h
    next hok =>
      obtain ⟨body, hb, hlen, hc⟩ := he.holds
      obtain ⟨rfl, -⟩ := hok
      have hne : t1 ≠ chCr := fun e => hcr (by rw [htail, e]; rfl)
      refine acceptTail_outcome h hi hc (by simpa using hlen) (List.cons_ne_nil _ _) ?_
      simpa using Framed.crcBearing body t1 t2 t3 t4 t6 hb hne
    next => exact invalidCandidate_outcome h hi
  next => exact invalidCandidate_outcome h hi

theorem onTail2_outcome {a : RxAnswer} (h : onTail2 a s = .next t) (hi : s.work.inRead = false)
    (he : Ended s.buf s.work.len.toNat) : FrameOutcome t := by
  unfold onTail2 at h
  dsimp only at h
  split at h
  · cases h; exact .inl ⟨rfl, hi⟩
  · unfold tail2Done at h
    split at h
    · exact legacyCheck_outcome h hi he
    · cases h; exact .inl ⟨rfl, hi⟩

theorem onTail4_outcome {a : RxAnswer} (h : onTail4 a s = .next t) (hi : s.work.inRead = false)
    (he : Ended s.buf s.work.len.toNat) (h2 : 2 ≤ s.work.tail.length) (hcr : s.work.tail.head? ≠ some (some chCr)) :
    FrameOutcome t := by
  unfold onTail4 at h
  dsimp only at h
  split at h
  · cases h; exact .inl ⟨rfl, hi⟩
  · refine tail4Done_outcome h hi he ?_
    show (s.work.tail ++ [probeOf a]).head? ≠ _
    rwa [List.head?_append_of_ne_nil _ (List.ne_nil_of_length_pos (Nat.lt_of_lt_of_le Nat.zero_lt_two h2))]

end

/-- Each handler of the framer, run with what the invariant says of its control state. -/
theorem Handles.outcome {c : Ctl} {k : State → Result} (h : Handles c k) (hc : c.frames = true) {s t : State}
    (hs : s.ctl = c) (hinv : CtlInv s) (hi : s.work.inRead = false) (hk : k s = .next t) : FrameOutcome t := by
  unfold CtlInv at hinv
  rw [hs] at hinv
  cases h with
  | frSearch a => exact onSearch_outcome hk hi
  | frAccum a => exact onAccum_outcome hk hi
  | frTail2 a =>
    obtain ⟨-, -, he, -⟩ := hinv
    exact onTail2_outcome hk hi he
  | frTail4 a =>
    obtain ⟨-, -, he, h2, -, hcr⟩ := hinv
    exact onTail4_outcome hk hi he h2 hcr
  | _ => cases hc

theorem move_frameOutcome {s t : State} (hs : CtlInv s) (hc : s.ctl.frames = true) (hi : s.work.inRead = false)
    (h : move s = some (.next t)) : FrameOutcome t := by
  obtain ⟨k, f, hk, hr, -⟩ := move_eq_some h
  exact hk.outcome (s := { s with env := f }) hc rfl hs hi hr.symm

/-- FRAME_READ that ends with a nonzero response has delivered a telegram. -/
theorem exec_frameRead_delivers {s t : State} (hs : StateInv s) (hr : Ready s) (h : exec .frameRead s = .next t)
    (hi : t.ctl = .idle) (hne : t.result ≠ 0) : Delivered t := by
  have hrun := (exec_frameRead hr).symm.trans h
  have hinv : StateInv (s.scan .frSearch s.buf (s.work.frameEntry s.maxfail) 0 s.env.rx 1) := hs.of rfl ⟨hr.2, rfl⟩
  obtain ⟨-, hout⟩ := advance_keeps (P := fun u => StateInv u ∧ FrameOutcome u) (fun u v ⟨hu, ho⟩ hm => by
    refine ⟨move_inv hu hm, ?_⟩
    rcases ho with ⟨hf, hin⟩ | ⟨hidle, -⟩
    · exact move_frameOutcome hu.control hf hin hm
    · rw [move_idle hidle] at hm; cases hm) ⟨hinv, .inl ⟨rfl, rfl⟩⟩ hrun
  rcases hout with ⟨hf, -⟩ | ⟨-, h0 | hd⟩
  · rw [hi] at hf; cases hf
  · exact absurd h0 hne
  · exact hd

/-! ## The shape of a telegram -/

/-- A Legacy telegram of `tel.length` bytes ends in its first `'!'`, CR and one byte more (30_encoding.md R75). -/
def LegacyShape (tel : List Byte) : Prop :=
  4 ≤ tel.length ∧ tel[tel.length - 3]? = some chBang ∧ (∀ i, i < tel.length - 3 → tel[i]? ≠ some chBang) ∧
    tel[tel.length - 2]? = some chCr

/-- A CRC-bearing telegram has its first `'!'` seven bytes before its end, no CR behind it and CR last but one (R76). -/
def CrcShape (tel : List Byte) : Prop :=
  8 ≤ tel.length ∧ tel[tel.length - 7]? = some chBang ∧ (∀ i, i < tel.length - 7 → tel[i]? ≠ some chBang) ∧
    tel[tel.length - 6]? ≠ some chCr ∧ tel[tel.length - 2]? = some chCr

/-- No `'!'` before the candidate's own. -/
theorem candidate_getElem?_ne_bang {body l : List Byte} (hb : chBang ∉ body) {i : Nat} (hi : i < body.length + 1) :
    (chSlash :: body ++ l)[i]? ≠ some chBang := by
  rw [List.getElem?_append_left (by simpa using hi)]
  intro e
  rcases List.mem_cons.1 (List.mem_of_getElem? e) with h | h
  · exact absurd h (by decide)
  · exact hb h

theorem Framed.shape {tel : List Byte} (h : Framed tel) :
    tel[0]? = some chSlash ∧ (LegacyShape tel ∨ CrcShape tel) := by
  cases h with
  | legacy body t2 hb =>
    refine ⟨rfl, .inl ?_⟩
    have hlen : (chSlash :: body ++ [chBang, chCr, t2]).length = body.length + 4 := by simp
    rw [LegacyShape, hlen]
    exact ⟨by omega, by simp, fun i hi => candidate_getElem?_ne_bang hb hi, by simp⟩
  | crcBearing body t1 t2 t3 t4 t6 hb ht =>
    refine ⟨rfl, .inr ?_⟩
    have hlen : (chSlash :: body ++ [chBang, t1, t2, t3, t4, chCr, t6]).length = body.length + 8 := by simp
    rw [CrcShape, hlen]
    exact ⟨by omega, by simp, fun i hi => candidate_getElem?_ne_bang hb hi, by simpa using ht, by simp⟩

theorem LegacyShape.classOf {tel : List Byte} (h : LegacyShape tel) (f : CrcFunction) :
    (classOf f tel).1 = .legacy := by
  obtain ⟨h4, hbang, -, -⟩ := h
  rw [Machine.classOf, if_pos ⟨by omega, hbang⟩]

theorem CrcShape.classOf {tel : List Byte} (h : CrcShape tel) (f : CrcFunction) :
    (classOf f tel).1 = if tel[tel.length - 3]? = some chBang then .legacy else .crc := by
  obtain ⟨h8, hbang, -, -, -⟩ := h
  by_cases h3 : tel[tel.length - 3]? = some chBang
  · rw [Machine.classOf, if_pos ⟨by omega, h3⟩, if_pos h3]
  · rw [Machine.classOf, if_neg (fun hc => h3 hc.2), if_pos ⟨by omega, hbang⟩, if_neg h3]

/-- CRC_COMPUTE over a telegram held from offset 0 classes it as `classOf` does. -/
theorem exec_crcCompute_style {s : State} {tel : List Byte} {n : BitVec 16} (hr : Ready s) (hn : n.toNat = tel.length)
    (hcap : tel.length ≤ s.bufcap.toNat) (h : Holds s.buf 0 tel) :
    ∃ u, exec (.crcCompute n) s = .next u ∧ u.status.style = (classOf s.params.crc tel).1 :=
  ⟨_, exec_crcCompute_of_crcBody (d := s.draws) hr ((congrArg (crcBody · s) hn).trans (crcBody_holds hcap h)), rfl⟩

end Sys2Proof.Machine

namespace Sys2Proof.Proofs

open Sys2Proof.Machine

/-- Settles O29: what is delivered is a telegram in the buffer (`exec_frameRead_delivers`), and its shape decides how
the CRC unit classes it. -/
theorem frameReadOutputShape : Obligations.FrameReadOutputShape := by
  intro s t hs hr h hi hne
  obtain ⟨tel, hf, hcap, hc, hlast, hresult⟩ := exec_frameRead_delivers hs hr h hi hne
  obtain ⟨d0, -, hk⟩ := exec_kept h (by decide) (by decide) (by decide)
  have ht : Ready t := ⟨hi, hk.isOpen.trans hr.2⟩
  have hn : (BitVec.ofNat 16 tel.length).toNat = tel.length := ofNat_length_toNat hcap
  obtain ⟨u, hu, hstyle⟩ := exec_crcCompute_style ht hn hcap hc
  obtain ⟨hslash, hshape⟩ := hf.shape
  have hpos : 4 ≤ tel.length := by
    rcases hshape with ⟨h4, -⟩ | ⟨h8, -⟩ <;> omega
  refine ⟨BitVec.ofNat 16 tel.length, ?_, hlast, hn.trans_le hcap, (hc.read (by omega)).trans hslash, ?_⟩
  · rw [hresult, ← BitVec.ofNat_toNat, hn]
  · rw [hn]
    rcases hshape with hl | hl
    · obtain ⟨h4, hbang, hfirst, hcr⟩ := id hl
      refine .inl ⟨h4, (hc.read (by omega)).trans hbang, fun i hi => ?_, (hc.read (by omega)).trans hcr, u, hu, ?_⟩
      · rw [hc.read (by omega)]
        exact hfirst i hi
      · exact hstyle.trans (hl.classOf _)
    · obtain ⟨h8, hbang, hfirst, hno, hcr⟩ := id hl
      refine .inr ⟨h8, (hc.read (by omega)).trans hbang, fun i hi => ?_, ?_, (hc.read (by omega)).trans hcr, u, hu, ?_⟩
      · rw [hc.read (by omega)]
        exact hfirst i hi
      · rw [hc.read (by omega)]
        exact hno
      · rw [hc.read (by omega)]
        exact hstyle.trans (hl.classOf _)

end Sys2Proof.Proofs
end

section
/-! The D0 engine one answer at a time: what ends a step, the writes that are drained, and the capture of one byte
(42_d0_handshake.md R115, R116, R123, R124, R126, R128). -/

namespace Sys2Proof.Machine

/-! ## A state of the D0 engine -/

/-- `s` with the D0 engine running over it: control state `c`, internal registers `w`, the answers `e` to come and `o`
put out. What the engine writes elsewhere is written into `s`. -/
def State.engaged (s : State) (c : Ctl) (w : Work) (e : Env) (o : List Output) : State :=
  { s with ctl := c, work := w, env := e, out := s.out ++ o }

/-! ## A step by its first move -/

/-- A move that ends the command is the whole step. -/
theorem step_of_move_ended {s t : State} (h : move s = some (.next t)) (ht : t.ctl = .idle) : step s = .next t := by
  have hbusy : s.ctl ≠ .idle := fun hi => by rw [move_idle hi] at h; cases h
  rw [step_running hbusy, advance_next h, advance_idle ht]

theorem step_of_move_fail {s u : State} {e : ErrCode} (h : move s = some (fail e u)) : step s = fail e u :=
  step_of_move_ended h rfl

/-- A move to a further request leaves the rest of the step to the state it leads to. -/
theorem step_of_move_next {s t : State} (h : move s = some (.next t)) (ht : t.ctl ≠ .idle) : step s = step t := by
  have hbusy : s.ctl ≠ .idle := fun hi => by rw [move_idle hi] at h; cases h
  rw [step_running hbusy, advance_next h, step_running ht]

/-- The three reads of the D0 engine fail alike (R116, R117, R126). -/
theorem move_rx_error {s : State} {rest : List RxAnswer}
    (hc : s.ctl = .d0AwaitId ∨ s.ctl = .d0IdRead ∨ s.ctl = .d0Capture) (hrx : s.env.rx = .error :: rest) :
    move s = some (fail .read { s with env := { s.env with rx := rest } }) := by
  rcases hc with hc | hc | hc <;> simp only [move, hc] <;> exact onRx_eq_some.2 ⟨_, _, hrx, rfl⟩

/-- A rebase, a baud switch and a toggle fail alike (R112, R124; 43_session.md R143). -/
theorem move_apply_fail {s : State} {applies : List ApplyAnswer}
    (hc : s.ctl = .d0Rebase ∨ s.ctl = .d0Baud ∨ s.ctl = .rdToggle) (ha : s.env.apply = .fail :: applies) :
    move s = some (fail .config { s with env := { s.env with apply := applies } }) := by
  rcases hc with hc | hc | hc <;> simp only [move, hc] <;> exact onApply_eq_some.2 ⟨_, _, ha, rfl⟩

/-! ## The writes that are drained before their count is tested -/

/-- `DrainedWrite c cd n k`: a string of `n` bytes is written in control state `c` and drained in `cd`, and the handler
`k` then tests the count (R115, R123, R128). -/
inductive DrainedWrite : Ctl → Ctl → Nat → (State → Result) → Prop
  | signon : DrainedWrite .d0Signon .d0SignonDrain 5 onSignonDrained
  | ack : DrainedWrite .d0Ack .d0AckDrain 6 onAckDrained
  | signoff : DrainedWrite .d0Signoff .d0SignoffDrain 6 onSignoffDrained

section
variable {c cd : Ctl} {n : Nat} {k : State → Result} (hw : DrainedWrite c cd n k) {s : State}
include hw

theorem DrainedWrite.move_written {a : TxAnswer} {txs : List TxAnswer} (hc : s.ctl = c) (htx : s.env.tx = a :: txs)
    (hf : a.fits n = true) : move s =
      some (.next (s.engaged cd { s.work with wrote := a } { s.env with tx := txs } [.request .drain])) := by
  cases hw <;> simp only [move, hc] <;> exact onTx_answered htx hf

theorem DrainedWrite.move_drained {d : Nat} (hc : s.ctl = cd) (hd : s.env.done = d + 1) :
    move s = some (k { s with env := { s.env with done := d } }) := by
  have hm : move s = onDone k s := by cases hw <;> simp only [move, hc]
  exact hm.trans (onDone_eq_some.2 ⟨d, hd, rfl⟩)

theorem DrainedWrite.short (h : s.work.wrote ≠ .written n) : k s = fail .write s := by
  cases hw <;> exact if_neg h

/-- A short write ends the step that has its drain answered. -/
theorem DrainedWrite.step_short {d : Nat} (hc : s.ctl = cd) (h : s.work.wrote ≠ .written n) (hd : s.env.done = d + 1) :
    step s = fail .write { s with env := { s.env with done := d } } :=
  step_of_move_fail ((hw.move_drained hc hd).trans (congrArg some (hw.short h)))

theorem DrainedWrite.drain_ne_idle : cd ≠ .idle := by cases hw <;> decide

end

/-! ## The capture of one byte (R125, R126) -/

/-- `s` with `b` stored at LEN and counted, and the answers `as` to come. -/
def State.storing (s : State) (b : Byte) (as : List RxAnswer) : State :=
  { s with
    buf := s.buf.write s.work.len.toNat b
    work := { s.work with len := s.work.len + 1 }
    env := { s.env with rx := as } }

theorem storeByte_inRange {s : State} (b : Byte) {as : List RxAnswer} (h : s.work.len < s.bufcap) :
    storeByte b { s with env := { s.env with rx := as } } = .next (s.storing b as) :=
  storeByte_eq_next.2 ⟨h, rfl⟩

/-- The two forms of the body test, R125's and the model's. -/
theorem bodyByte_iff {p : BodyCheck} {b : Byte} : BodyByte p b ↔ b ≠ chBang ∧ badBody p b = false := by
  refine and_congr_right fun _ => ?_
  cases p
  case intended => simp [badBody]
  case literal =>
    simp only [badBody, Bool.or_eq_false_iff, decide_eq_false_iff_not]
    bv_omega

section
variable {s : State} {b : Byte} {rest : List RxAnswer}

theorem move_capture {a : RxAnswer} (hc : s.ctl = .d0Capture) (hrx : s.env.rx = a :: rest) :
    move s = some (onCapture a { s with env := { s.env with rx := rest } }) := by
  have hm : move s = onRx onCapture s := by simp only [move, hc]
  exact hm.trans (onRx_eq_some.2 ⟨a, rest, hrx, rfl⟩)

theorem onCapture_bad (hb : b ≠ chBang) (h : ¬ BodyByte s.params.bodyCheck b) :
    onCapture (.byte b) s = fail .nonprintable s := by
  have hbad : badBody s.params.bodyCheck b = true := by
    rw [← Bool.not_eq_false]
    exact fun hgood => h (bodyByte_iff.2 ⟨hb, hgood⟩)
  rw [onCapture, if_neg hb, if_pos hbad]

theorem onCapture_body (h : BodyByte s.params.bodyCheck b) (hlen : s.work.len < s.bufcap) :
    onCapture (.byte b) { s with env := { s.env with rx := rest } } = captureNext (s.storing b rest) := by
  obtain ⟨hb, hgood⟩ := bodyByte_iff.1 h
  have hgood' : ¬ badBody s.params.bodyCheck b = true := Bool.eq_false_iff.1 hgood
  rw [onCapture, if_neg hb, if_neg hgood', storeByte_inRange b hlen, andThen_next]

theorem onCapture_bang (hlen : s.work.len < s.bufcap) :
    onCapture (.byte chBang) { s with env := { s.env with rx := rest } } = gotoSignoff (s.storing chBang rest) := by
  rw [onCapture, if_pos rfl, storeByte_inRange chBang hlen, andThen_next]

end

section
variable {s : State}

theorem captureNext_full (h : s.work.len = s.bufcap) : captureNext s = fail .bufferTooSmall s := if_pos h

theorem captureNext_room (h : s.work.len ≠ s.bufcap) : captureNext s = .next (issue .rx .d0Capture s) := if_neg h

theorem gotoSignoff_terminal (ht : s.status.term = true) (hm : s.status.mode ≠ .probe) :
    gotoSignoff s = .next (issue (.tx signoffBytes) .d0Signoff s) := if_pos (by simp [ht, hm])

theorem gotoSignoff_noTerminal (ht : s.status.term = false) : gotoSignoff s = d0Complete s := if_neg (by simp [ht])

/-- Outside READ the length of the telegram proper is the response (R129). -/
theorem d0Complete_standalone (hi : s.work.inRead = false) : d0Complete s =
    .next (respond ((s.work.len - s.idLen).setWidth 32) { s with lastLen := s.work.len - s.idLen }) := by
  rw [d0Complete, d0Found, if_neg (Bool.eq_false_iff.1 hi), succeed_eq, BitVec.ofNat_toNat]

end

end Sys2Proof.Machine

namespace Sys2Proof.Proofs

open Sys2Proof.Machine

/-- Settles O35: each of the three reads fails in one move. -/
theorem d0ReadErrorAborts : Obligations.D0ReadErrorAborts := fun _ _ hc hrx => step_of_move_fail (move_rx_error hc hrx)

/-- Settles O37: each of the three `Apply`s fails in one move. -/
theorem failedApplyKeepsConfig : Obligations.FailedApplyKeepsConfig := fun _ _ hc ha =>
  step_of_move_fail (move_apply_fail hc ha)

/-- Settles O36: from the drain in one move, and from the `Tx` by a move to the drain. -/
theorem shortWriteAborts : Obligations.ShortWriteAborts := by
  constructor
  · intro s n a txs d hc ha htx hd
    obtain ⟨cd, k, hw⟩ : ∃ cd k, DrainedWrite s.ctl cd n k := by
      rcases hc with ⟨hc, rfl⟩ | ⟨hc, rfl⟩ | ⟨hc, rfl⟩ <;> rw [hc] <;> exact ⟨_, _, by constructor⟩
    have hfits : a.fits n = true := by
      rcases ha with rfl | ⟨m, hm, rfl⟩ <;> simp [Nat.le_of_lt, *]
    have hshort : a ≠ .written n := by
      rcases ha with rfl | ⟨m, hm, rfl⟩ <;> simp [Nat.ne_of_lt, *]
    calc step s
        = step (s.engaged cd { s.work with wrote := a } { s.env with tx := txs } [.request .drain]) :=
          step_of_move_next (hw.move_written rfl htx hfits) hw.drain_ne_idle
      _ = fail .write (s.engaged cd { s.work with wrote := a } { s.env with tx := txs, done := d } [.request .drain]) :=
          hw.step_short rfl hshort hd
      _ = _ := by rw [fail_frame, State.engaged, List.append_assoc]; rfl
  · intro s d hc hd
    rcases hc with ⟨hc, hw⟩ | ⟨hc, hw⟩ | ⟨hc, hw⟩
    · exact DrainedWrite.signon.step_short hc hw hd
    · exact DrainedWrite.ack.step_short hc hw hd
    · exact DrainedWrite.signoff.step_short hc hw hd

/-- Settles O38, answer by answer. -/
theorem captureTakesOneByte : Obligations.CaptureTakesOneByte := by
  intro s a rest hc hlen hm hrx
  have hmove := move_capture hc hrx
  refine ⟨?error, ?empty, ?bad, ?room, ?full, ?terminal, ?noTerminal⟩
  case error => rintro rfl; exact step_of_move_fail hmove
  case empty => rintro rfl; exact step_of_move_fail hmove
  case bad =>
    rintro b rfl hne hbad
    exact step_of_move_fail (hmove.trans (congrArg some (onCapture_bad hne hbad)))
  case room =>
    rintro b rfl hb hroom
    have hne : (s.storing b rest).work.len ≠ s.bufcap := BitVec.ne_of_lt hroom
    rw [hmove, onCapture_body hb hlen, captureNext_room hne, issue, ← hc]
    rfl
  case full =>
    rintro b rfl hb hfull
    exact step_of_move_fail (hmove.trans (congrArg some ((onCapture_body hb hlen).trans (captureNext_full hfull))))
  case terminal =>
    rintro rfl ht
    exact hmove.trans (congrArg some ((onCapture_bang hlen).trans (gotoSignoff_terminal ht hm)))
  case noTerminal =>
    rintro rfl ht hi
    have ht' : (s.storing chBang rest).status.term = false := ht
    have hi' : (s.storing chBang rest).work.inRead = false := hi
    have hend := (gotoSignoff_noTerminal ht').trans (d0Complete_standalone hi')
    exact step_of_move_ended (hmove.trans (congrArg some ((onCapture_bang hlen).trans hend))) rfl

end Sys2Proof.Proofs
end

section
/-! The wake-up and the sign-on: a command that runs the D0 engine up to the read of the identification line
(42_d0_handshake.md R112 to R116). -/

namespace Sys2Proof.Machine

/-- The request of one null byte (R113). -/
abbrev nullRequest : Output := .request (.tx [0x00])

/-- The internal registers after `k` nulls (R113). -/
def Work.woken (w : Work) (k : Nat) : Work := { w with nulls := k }

section
variable {s : State} {c cd : Ctl} {w : Work} {e : Env} {o : List Output}

@[simp] theorem engaged_work : (s.engaged c w e o).work = w := rfl
@[simp] theorem engaged_status : (s.engaged c w e o).status = s.status := rfl
@[simp] theorem engaged_config : (s.engaged c w e o).config = s.config := rfl
@[simp] theorem engaged_idLen : (s.engaged c w e o).idLen = s.idLen := rfl
@[simp] theorem engaged_bufcap : (s.engaged c w e o).bufcap = s.bufcap := rfl

theorem issue_engaged (r : Request) (c' : Ctl) :
    issue r c' (s.engaged c w e o) = s.engaged c' w e (o ++ [.request r]) := by
  simp only [issue, State.engaged, List.append_assoc]

theorem fail_engaged (err : ErrCode) : andThen (fail err (s.engaged c w e o)) advance =
    .next { s with ctl := .idle, work := w, env := e, result := err.word, out := s.out ++ o ++ [.response err.word] } :=
  advance_idle rfl

/-! ## One answered write, drain or wait -/

theorem advance_wake {a : TxAnswer} {txs : List TxAnswer} (htx : e.tx = a :: txs) (hf : a.fits 1 = true) :
    advance (s.engaged .d0Wake w e o) = andThen (onWake a (s.engaged .d0Wake w { e with tx := txs } o)) advance :=
  advance_move (onTx_answered htx hf)

theorem advance_wakeDrain {d : Nat} (hd : e.done = d + 1) : advance (s.engaged .d0WakeDrain w e o) =
    advance (s.engaged .d0Settle w { e with done := d } (o ++ [.request (.wait 2700)])) := by
  rw [← issue_engaged]
  exact advance_next (onDone_eq_some.2 ⟨d, hd, rfl⟩)

theorem advance_settle {d : Nat} (hd : e.done = d + 1) : advance (s.engaged .d0Settle w e o) =
    advance (s.engaged .d0Signon w { e with done := d } (o ++ [.request (.tx signonBytes)])) := by
  rw [← issue_engaged]
  exact advance_next (onDone_eq_some.2 ⟨d, hd, rfl⟩)

/-- A string written in full is drained, and its handler goes on (R115, R123, R128). -/
theorem DrainedWrite.advance_full {n : Nat} {k : State → Result} (hw : DrainedWrite c cd n k) {txs : List TxAnswer}
    {d : Nat} (htx : e.tx = .written n :: txs) (hd : e.done = d + 1) :
    advance (s.engaged c w e o) =
      andThen (k (s.engaged cd { w with wrote := .written n } { e with tx := txs, done := d } (o ++ [.request .drain])))
        advance := by
  have hmove := hw.move_written (s := s.engaged c w e o) rfl htx (by simp)
  have hdrain := hw.move_drained (d := d)
    (s := s.engaged cd { w with wrote := .written n } { e with tx := txs } (o ++ [.request .drain])) rfl hd
  refine (advance_next hmove).trans (Eq.trans ?_ (advance_move hdrain))
  simp only [State.engaged, List.append_assoc]

/-- A sign-on written in full: the identification is awaited (R115). -/
theorem advance_signon {txs : List TxAnswer} {d : Nat} (htx : e.tx = .written 5 :: txs) (hd : e.done = d + 1) :
    advance (s.engaged .d0Signon w e o) =
      advance (s.engaged .d0AwaitId { w with wrote := .written 5 } { e with tx := txs, done := d }
        (o ++ [.request .drain, .request .rx])) := by
  rw [DrainedWrite.signon.advance_full htx hd, onSignonDrained, engaged_work, if_pos rfl, andThen_next, issue_engaged,
    List.append_assoc]
  rfl

theorem advance_awaitId {a : RxAnswer} {as : List RxAnswer} (hrx : e.rx = a :: as) :
    advance (s.engaged .d0AwaitId w e o) =
      andThen (onAwaitId a (s.engaged .d0AwaitId w { e with rx := as } o)) advance :=
  advance_move (onRx_eq_some.2 ⟨a, as, hrx, rfl⟩)

/-- Anything but a `'/'` ends the command where the identification is awaited (R116). -/
theorem onAwaitId_noSlash {a : RxAnswer} (h : a ≠ .byte chSlash) :
    onAwaitId a s = fail (if a = .error then .read else .noId) s := by
  cases a with
  | byte b => exact if_neg fun e => h (congrArg RxAnswer.byte e)
  | empty | error => rfl

/-! ## The wake-up (R113) -/

/-- A null that is not the last, and the next one. -/
theorem onWake_more {j : Nat} (h : j + 1 < 65) : onWake (.written 1) (s.engaged .d0Wake (w.woken j) e o) =
    .next (s.engaged .d0Wake (w.woken (j + 1)) e (o ++ [nullRequest])) := by
  rw [← issue_engaged]
  exact (if_pos rfl).trans (if_pos h)

/-- The last null, and the drain of R114. -/
theorem onWake_last : onWake (.written 1) (s.engaged .d0Wake (w.woken 64) e o) =
    .next (s.engaged .d0WakeDrain (w.woken 65) e (o ++ [.request .drain])) := by
  have hlast : ¬ 64 + 1 < Config.nWake := by decide
  rw [← issue_engaged]
  exact (if_pos rfl).trans (if_neg hlast)

/-- Nulls written before the last, one after another. -/
theorem advance_nulls {j k : Nat} {txs : List TxAnswer} (htx : e.tx = List.replicate k (.written 1) ++ txs)
    (hk : j + k < 65) : advance (s.engaged .d0Wake (w.woken j) e o) =
      advance (s.engaged .d0Wake (w.woken (j + k)) { e with tx := txs } (o ++ List.replicate k nullRequest)) := by
  induction k generalizing j e o with
  | zero =>
    subst htx
    rw [List.replicate_zero, List.append_nil]
    rfl
  | succ k ih =>
    have hnext : e.tx = .written 1 :: (List.replicate k (.written 1) ++ txs) := htx
    calc advance (s.engaged .d0Wake (w.woken j) e o)
        = advance (s.engaged .d0Wake (w.woken (j + 1)) { e with tx := List.replicate k (.written 1) ++ txs }
            (o ++ [nullRequest])) := by rw [advance_wake hnext (by decide), onWake_more (by omega), andThen_next]
      _ = _ := ih rfl (by omega)
      _ = _ := by
        rw [List.append_assoc, List.singleton_append, ← List.replicate_succ, Nat.add_assoc, Nat.add_comm 1]

/-- A wake-up and a sign-on that succeed: the identification is awaited (R113 to R116). -/
theorem advance_signedOn {txs : List TxAnswer} {d : Nat} (htx : e.tx = wakeTxAnswers ++ txs) (hd : e.done = 3 + d) :
    advance (s.engaged .d0Wake (w.woken 0) e (o ++ [nullRequest])) =
      advance (s.engaged .d0AwaitId { w.woken 65 with wrote := .written 5 } { e with tx := txs, done := d }
        (o ++ wakeRequests ++ signonRequests ++ rxRequests 1)) := by
  have h64 : e.tx = List.replicate 64 (.written 1) ++ .written 1 :: .written 5 :: txs := by
    rw [htx, wakeTxAnswers, List.replicate_succ', List.append_assoc, List.append_assoc]
    rfl
  have hd3 : { e with tx := .written 5 :: txs }.done = d + 1 + 1 + 1 := by simp only; omega
  calc advance (s.engaged .d0Wake (w.woken 0) e (o ++ [nullRequest]))
      = advance (s.engaged .d0Wake (w.woken 64) { e with tx := .written 1 :: .written 5 :: txs }
          (o ++ [nullRequest] ++ List.replicate 64 nullRequest)) := advance_nulls h64 (by decide)
    _ = advance (s.engaged .d0WakeDrain (w.woken 65) { e with tx := .written 5 :: txs }
          (o ++ [nullRequest] ++ List.replicate 64 nullRequest ++ [.request .drain])) := by
        rw [advance_wake rfl (by decide), onWake_last, andThen_next]
    _ = advance (s.engaged .d0Signon (w.woken 65) { e with tx := .written 5 :: txs, done := d + 1 }
          (o ++ wakeRequests ++ [.request (.tx signonBytes)])) := by
        rw [advance_wakeDrain hd3, advance_settle rfl, List.append_assoc o, List.singleton_append, ← List.replicate_succ,
          wakeRequests]
        simp only [List.append_assoc, List.singleton_append]
    _ = _ := by
        rw [advance_signon rfl rfl, List.append_assoc _ signonRequests, List.append_assoc _ [_]]
        rfl

end

/-! ## How the command begins (R112) -/

/-- The internal registers with READ's mark as the command `i` sets it (43_session.md R141). -/
def Work.begun (w : Work) (i : Instr) : Work := { w with inRead := decide (i = .read) }

/-- The registers when the first null is sent: the flags cleared and CONFIG rebased, if the parameter says so. -/
def d0Begun (i : Instr) (s : State) : State := { clearD0Flags (d0Start i s) with config := wakeConfig s }

theorem d0Entry_rebasing {s : State} (h : rebases s = true) :
    d0Entry s = issue (.apply (d0Baseline s.config)) .d0Rebase (clearD0Flags s) := by
  obtain ⟨hp, ht⟩ := Bool.and_eq_true_iff.1 h
  exact (if_pos hp).trans (if_pos ht)

theorem d0Entry_waking {s : State} (h : rebases s = false) :
    d0Entry s = gotoWake { clearD0Flags s with config := wakeConfig s } := by
  unfold wakeConfig
  by_cases hp : s.params.d0Rebase = true
  · have ht : ¬ s.status.term = true := fun ht => by simp [rebases, hp, ht] at h
    rw [if_pos hp]
    exact (if_pos hp).trans (if_neg ht)
  · rw [if_neg hp]
    exact if_neg hp

/-- The first null goes out, after the rebase if there is one (R112, R113). -/
theorem advance_d0Entry {s : State} {applies : List ApplyAnswer}
    (ha : s.env.apply = (if rebases s then [.ok] else []) ++ applies) : advance (d0Entry s) =
      advance (({ clearD0Flags s with config := wakeConfig s } : State).engaged .d0Wake (s.work.woken 0)
        { s.env with apply := applies } (rebaseRequests s ++ [nullRequest])) := by
  cases hre : rebases s
  case false =>
    rw [hre] at ha
    have he : s.env = { s.env with apply := applies } := by rw [← show s.env.apply = applies from ha]
    rw [d0Entry_waking hre, rebaseRequests, hre, ← he]
    rfl
  case true =>
    have hconfig : wakeConfig s = d0Baseline s.config := if_pos (Bool.and_eq_true_iff.1 hre).1
    rw [hre] at ha
    rw [d0Entry_rebasing hre, rebaseRequests, hre, hconfig, if_pos rfl, State.engaged, ← List.append_assoc]
    exact advance_next (onApply_eq_some.2 ⟨.ok, applies, ha, rfl⟩)

section
variable {i : Instr} {s : State} (hr : RunsD0 i s) (hs : Ready s)
include hr hs

/-- A command that runs the D0 engine enters it, READ with its outcome cleared (43_session.md R141). -/
theorem exec_runsD0 : exec i s = advance (d0Entry { d0Start i s with work := s.work.begun i }) := by
  obtain ⟨hidle, hopen⟩ := hs
  rcases hr with rfl | ⟨rfl, hpath⟩
  · rw [exec_eq_start, start, whenIdle_idle hidle, whenOpen_open hopen, andThen_next]
    rfl
  · rw [exec_eq_start, start, whenIdle_idle hidle, whenOpen_open hopen, andThen_next, readEntry_d0 hpath]
    rfl

variable {applies : List ApplyAnswer} (ha : s.env.apply = (if rebases s then [.ok] else []) ++ applies)
include ha

/-- The command up to its first null: what READ clears beforehand is nothing the engine's beginning reads (R141). -/
theorem exec_wakes : exec i s =
    advance ((d0Begun i s).engaged .d0Wake ((s.work.begun i).woken 0) { s.env with apply := applies }
      (rebaseRequests s ++ [nullRequest])) := by
  rw [exec_runsD0 hr hs]
  rcases hr with rfl | ⟨rfl, -⟩ <;> exact advance_d0Entry ha

/-- The command up to the read of the first identification byte (R112 to R116). -/
theorem exec_signsOn {txs : List TxAnswer} {d : Nat} (htx : s.env.tx = wakeTxAnswers ++ txs)
    (hd : s.env.done = 3 + d) : exec i s =
      advance ((d0Begun i s).engaged .d0AwaitId { (s.work.begun i).woken 65 with wrote := .written 5 }
        { s.env with tx := txs, apply := applies, done := d } (identificationRequests s 1)) :=
  (exec_wakes hr hs ha).trans (advance_signedOn htx hd)

end

/-- What a failure of the D0 engine leaves of the state in which its command was taken. -/
theorem fail_d0Begun {i : Instr} {s : State} (hr : RunsD0 i s) (hs : Ready s) {c : Ctl} {w : Work} {e : Env}
    {o : List Output} (err : ErrCode) :
    andThen (fail err ((d0Begun i s).engaged c w e o)) advance = .next { d0Start i s with
      status := { (d0Start i s).status with ackSent := false, signoffSent := false }
      config := wakeConfig s
      idLen := 0
      lastLen := 0
      work := w
      result := err.word
      env := e
      out := s.out ++ o ++ [.response err.word] } := by
  rw [fail_engaged, ← hs.1]
  rcases hr with rfl | ⟨rfl, -⟩ <;> rfl

end Sys2Proof.Machine

namespace Sys2Proof.Proofs

open Sys2Proof.Machine

/-- Settles O33: `k` nulls are written (`advance_nulls`), and the answer to the next one fails. -/
theorem failedWakeUpAborts : Obligations.FailedWakeUpAborts := by
  intro i s k a txs applies hr hs hk ha htx happly
  have hfits : a.fits 1 = true := by rcases ha with rfl | rfl <;> rfl
  have hshort : a ≠ .written 1 := by rcases ha with rfl | rfl <;> decide
  have htx' : { s.env with apply := applies }.tx = List.replicate k (.written 1) ++ a :: txs := htx
  have hnulls : rebaseRequests s ++ [nullRequest] ++ List.replicate k nullRequest =
      rebaseRequests s ++ List.replicate (k + 1) nullRequest := List.append_assoc _ _ _
  refine ⟨(s.work.begun i).woken (0 + k), ?_⟩
  rw [exec_wakes hr hs happly, advance_nulls htx' (by omega), hnulls, advance_wake rfl hfits, onWake, if_neg hshort,
    fail_d0Begun hr hs, ← List.append_assoc]
  rfl

/-- Settles O34: the first identification byte is awaited (`exec_signsOn`), and the answer is not `'/'`. -/
theorem missingIdentificationAborts : Obligations.MissingIdentificationAborts := by
  intro i s a rest txs applies d hr hs hne hrx htx happly hd
  have hrx' : { s.env with tx := txs, apply := applies, done := d }.rx = a :: rest := hrx
  have hword : (if a = .error then ErrCode.read else .noId).word =
      if a = .error then 0xFFFFFFFD#32 else 0xFFFFFFFC#32 := by split <;> rfl
  refine ⟨{ (s.work.begun i).woken 65 with wrote := .written 5 }, ?_⟩
  rw [exec_signsOn hr hs happly htx hd, advance_awaitId hrx', onAwaitId_noSlash hne, fail_d0Begun hr hs, hword]

end Sys2Proof.Proofs
end

section
/-! The identification line: how D0_ID_READ captures it, and what D0_ID_PARSE makes of it (42_d0_handshake.md R116 to
R122). -/

namespace Sys2Proof.Machine

/-! ## Capturing the line (R116, R117) -/

/-- `s` with the buffer `m`. -/
def State.withBuf (s : State) (m : Memory) : State := { s with buf := m }

@[simp] theorem withBuf_status (s : State) (m : Memory) : (s.withBuf m).status = s.status := rfl
@[simp] theorem withBuf_bufcap (s : State) (m : Memory) : (s.withBuf m).bufcap = s.bufcap := rfl

/-- `s` with the identification line in the buffer and counted (R117). -/
def State.lined (s : State) (line : List Byte) : State :=
  { s.withBuf (s.buf.writeAll 0 line) with idLen := BitVec.ofNat 16 line.length }

theorem rxRequests_add (n k : Nat) : rxRequests (n + k) = rxRequests n ++ rxRequests k :=
  (List.replicate_append_replicate ..).symm

/-- An identification line that fits is captured whole, up to its `'\n'`. -/
theorem IdLine.captured {ident : List Byte} (h : IdLine ident) {cap : Nat} (hcap : ident.length ≤ cap) :
    LineCaptured cap ident (rxBytes ident) := by
  obtain ⟨text, rfl, hlf⟩ := h
  have hnew : chLf ∉ text ++ [chCr] := by
    rw [List.mem_append, not_or]
    exact ⟨hlf, by decide⟩
  have hline : chSlash :: text ++ [chCr, chLf] = chSlash :: (text ++ [chCr]) ++ [chLf] := by simp
  rw [hline] at hcap ⊢
  refine .newline _ hnew ?_
  rw [List.length_append, List.length_cons, List.length_singleton] at hcap
  exact hcap

section
variable {s : State} {c : Ctl} {w : Work} {e : Env} {o : List Output} {k : Nat} {rest : List RxAnswer}

theorem advance_idRead {a : RxAnswer} (hrx : e.rx = a :: rest) : advance (s.engaged .d0IdRead w e o) =
    andThen (onIdRead a (s.engaged .d0IdRead w { e with rx := rest } o)) advance :=
  advance_move (onRx_eq_some.2 ⟨a, rest, hrx, rfl⟩)

theorem storeByte_engaged (b : Byte) (hk : k < s.bufcap.toNat) : storeByte b (s.engaged c (w.atLen k) e o) =
    .next ((s.withBuf (s.buf.write k b)).engaged c (w.atLen (k + 1)) e o) := by
  have hlen : (w.atLen k).len.toNat = k := atLen_toNat (s := s) (Nat.le_of_lt hk)
  have hlt : (s.engaged c (w.atLen k) e o).work.len < s.bufcap := by
    rw [BitVec.lt_def, engaged_work, hlen]
    exact hk
  rw [storeByte_eq_next.2 ⟨hlt, rfl⟩, engaged_work, hlen]
  simp only [State.engaged, Work.atLen, BitVec.ofNat_add]
  rfl

/-- Room for another byte of the line: it is read. -/
theorem idReadNext_room (hk : k < s.bufcap.toNat) : idReadNext (s.engaged c (w.atLen k) e o) =
    .next (s.engaged .d0IdRead (w.atLen k) e (o ++ rxRequests 1)) := by
  have hlt : (s.engaged c (w.atLen k) e o).work.len < (s.engaged c (w.atLen k) e o).bufcap := by
    rw [BitVec.lt_def, engaged_work, engaged_bufcap, atLen_toNat (s := s) (Nat.le_of_lt hk)]
    exact hk
  rw [idReadNext, if_pos hlt, issue_engaged]
  rfl

/-- A full buffer ends the line. -/
theorem idReadNext_full (hk : k = s.bufcap.toNat) :
    idReadNext (s.engaged c (w.atLen k) e o) = idLineEnds (s.engaged c (w.atLen k) e o) := by
  refine if_neg ?_
  rw [BitVec.lt_def, engaged_work, engaged_bufcap, atLen_toNat (s := s) (Nat.le_of_eq hk), hk]
  exact Nat.lt_irrefl _

/-- An Empty answer ends the line. -/
theorem advance_id_quiet (hk : k < s.bufcap.toNat) (hrx : e.rx = .empty :: rest) :
    andThen (idReadNext (s.engaged c (w.atLen k) e o)) advance =
      andThen (idLineEnds (s.engaged .d0IdRead (w.atLen k) { e with rx := rest } (o ++ rxRequests 1))) advance := by
  rw [idReadNext_room hk, andThen_next, advance_idRead hrx]
  rfl

/-- Every byte of the line is stored; a `'\n'` ends it. -/
theorem advance_id_byte {b : Byte} (hk : k < s.bufcap.toNat) (hrx : e.rx = .byte b :: rest) :
    andThen (idReadNext (s.engaged c (w.atLen k) e o)) advance =
      andThen ((if b = chLf then idLineEnds else idReadNext) ((s.withBuf (s.buf.write k b)).engaged .d0IdRead
        (w.atLen (k + 1)) { e with rx := rest } (o ++ rxRequests 1))) advance := by
  rw [idReadNext_room hk, andThen_next, advance_idRead hrx, onIdRead, storeByte_engaged b hk, andThen_next]
  split <;> rfl

/-- The bytes before the end of the line are stored one after another. -/
theorem advance_id_text {text : List Byte} (hlf : chLf ∉ text) (hk : k + text.length ≤ s.bufcap.toNat)
    (hrx : e.rx = rxBytes text ++ rest) :
    andThen (idReadNext (s.engaged c (w.atLen k) e o)) advance =
      andThen (idReadNext ((s.withBuf (s.buf.writeAll k text)).engaged .d0IdRead
        (w.atLen (k + text.length)) { e with rx := rest } (o ++ rxRequests text.length))) advance := by
  induction text generalizing s c e o k with
  | nil =>
    have he : e = { e with rx := rest } := by rw [← show e.rx = rest from hrx]
    rw [List.length_nil, rxRequests, List.replicate_zero, List.append_nil, ← he]
    rfl
  | cons b text ih =>
    rw [List.length_cons] at hk
    rw [List.mem_cons, not_or] at hlf
    rw [advance_id_byte (by omega) hrx, if_neg (Ne.symm hlf.1)]
    refine (ih hlf.2 (by rw [withBuf_bufcap]; omega) rfl).trans ?_
    rw [List.append_assoc, ← rxRequests_add, List.length_cons, Nat.add_comm 1, Nat.add_assoc k, Nat.add_comm 1]
    rfl

/-- The first `'/'` opens the line (R116). -/
theorem advance_id_slash (hcap : 0 < s.bufcap.toNat) (hrx : e.rx = .byte chSlash :: rest) :
    advance (s.engaged .d0AwaitId w e o) =
      andThen (idReadNext ((s.withBuf (s.buf.write 0 chSlash)).engaged .d0AwaitId (w.atLen 1)
        { e with rx := rest } o)) advance := by
  have hw : 0 < (s.engaged .d0AwaitId w { e with rx := rest } o).bufcap.toNat := hcap
  rw [advance_awaitId hrx, onAwaitId, if_pos rfl, bufWrite_inRange hw, andThen_next]
  rfl

/-- The line but for its end is stored from offset 0. -/
theorem advance_id_line {text : List Byte} (hlf : chLf ∉ text) (hcap : text.length + 1 ≤ s.bufcap.toNat)
    (hrx : e.rx = rxBytes (chSlash :: text) ++ rest) : advance (s.engaged .d0AwaitId w e (o ++ rxRequests 1)) =
      andThen (idReadNext ((s.withBuf (s.buf.writeAll 0 (chSlash :: text))).engaged .d0IdRead
        (w.atLen (text.length + 1)) { e with rx := rest } (o ++ rxRequests (text.length + 1)))) advance := by
  rw [advance_id_slash (by omega) hrx]
  refine (advance_id_text hlf (by rw [withBuf_bufcap]; omega) rfl).trans ?_
  rw [List.append_assoc, ← rxRequests_add, Nat.add_comm 1]
  rfl

/-- A captured line comes to D0_ID_PARSE, in the buffer and counted (R117). -/
theorem LineCaptured.parsed {line : List Byte} {answers : List RxAnswer} (h : LineCaptured s.bufcap.toNat line answers)
    (hrx : e.rx = answers ++ rest) : advance (s.engaged .d0AwaitId w e (o ++ rxRequests 1)) =
      andThen (idParse ((s.lined line).engaged .d0IdParse (w.atLen line.length) { e with rx := rest }
        (o ++ rxRequests answers.length))) advance := by
  cases h with
  | newline text hlf hlen =>
    rw [rxBytes_append, List.append_assoc] at hrx
    rw [advance_id_line hlf (by omega) hrx]
    refine (advance_id_byte (b := chLf) (by rw [withBuf_bufcap]; omega) rfl).trans ?_
    rw [if_pos rfl, List.append_assoc, ← rxRequests_add, rxBytes_length, State.lined, List.length_append,
      Memory.writeAll_append, Nat.zero_add]
    rfl
  | quiet text hlf hlen =>
    rw [List.append_assoc] at hrx
    rw [advance_id_line hlf (by omega) hrx]
    refine (advance_id_quiet (by rw [withBuf_bufcap]; omega) rfl).trans ?_
    rw [List.append_assoc, ← rxRequests_add, List.length_append, rxBytes_length]
    rfl
  | full text hlf hlen =>
    have hfull : text.length + 1 = (s.withBuf (s.buf.writeAll 0 (chSlash :: text))).bufcap.toNat := hlen
    rw [advance_id_line hlf (by omega) hrx, idReadNext_full hfull, rxBytes_length]
    rfl

end

/-! ## The shape of a line -/

/-- A captured line that ends `'\r' '\n'` is an identification line: no `'\n'` stands before its end. -/
theorem LineCaptured.idLine {cap : Nat} {ident : List Byte} {answers : List RxAnswer} (h : LineCaptured cap ident answers)
    (h3 : 3 ≤ ident.length) (hcr : ident[ident.length - 2]? = some chCr) (hlf : ident[ident.length - 1]? = some chLf) :
    IdLine ident := by
  have noEnd : ∀ text : List Byte, chLf ∉ text → 3 ≤ (chSlash :: text).length →
      (chSlash :: text)[(chSlash :: text).length - 1]? ≠ some chLf := by
    intro text hno hlen hend
    rw [List.length_cons] at hlen
    obtain ⟨k, hk⟩ : ∃ k, text.length = k + 1 := ⟨text.length - 1, by omega⟩
    have hlast : text[k]? = some chLf := by simpa [hk] using hend
    exact hno (List.mem_of_getElem? hlast)
  cases h with
  | newline text hno hlen =>
    obtain ⟨init, x, rfl⟩ : ∃ init x, text = init ++ [x] :=
      ⟨_, _, (List.dropLast_append_getLast (List.ne_nil_of_length_pos (Nat.succ_le_iff.1 (by simpa using h3)))).symm⟩
    have hx : x = chCr := by simpa using hcr
    subst hx
    exact ⟨init, by simp, fun hm => hno (List.mem_append_left _ hm)⟩
  | quiet text hno hlen => exact absurd hlf (noEnd text hno h3)
  | full text hno hlen => exact absurd hlf (noEnd text hno h3)

section
variable {ident : List Byte} (h : IdLine ident)
include h

theorem IdLine.ends : 3 ≤ ident.length ∧ ident[ident.length - 2]? = some chCr ∧ ident[ident.length - 1]? = some chLf := by
  obtain ⟨text, rfl, -⟩ := h
  have hlen : (chSlash :: text ++ [chCr, chLf]).length = text.length + 3 := by simp
  rw [hlen]
  exact ⟨by omega, by simp, by simp⟩

/-- A byte at offset 4 that is neither `'\r'` nor `'\n'` stands before the end of the line. -/
theorem IdLine.length_ge_seven {b : Byte} (hb : ident[4]? = some b) (hcr : b ≠ chCr) (hlf : b ≠ chLf) :
    7 ≤ ident.length := by
  obtain ⟨-, h2, h1⟩ := h.ends
  have hlt : 4 < ident.length := (List.getElem?_eq_some_iff.1 hb).1
  have hne2 : ident.length - 2 ≠ 4 := fun e => hcr (by rw [e, hb] at h2; exact Option.some.inj h2)
  have hne1 : ident.length - 1 ≠ 4 := fun e => hlf (by rw [e, hb] at h1; exact Option.some.inj h1)
  omega

end

/-! ## The baud-id byte (30_encoding.md R80) -/

theorem classifyBaudId_digit {c4 : Byte} {r : Byte × Byte × Baud} (h : baudTable.find? (fun r => r.1 = c4) = some r) :
    classifyBaudId c4 = .digit r.2.2 := by
  have hc : r.1 = c4 := by simpa using List.find?_some h
  rw [← hc]
  exact (Proofs.baudIdTable.1 r (List.mem_of_find?_eq_some h)).1

theorem classifyBaudId_letter {c4 : Byte} {r : Byte × Byte × Baud}
    (h : baudTable.find? (fun r => r.2.1 = c4) = some r) : classifyBaudId c4 = .letter r.2.2 := by
  have hc : r.2.1 = c4 := by simpa using List.find?_some h
  rw [← hc]
  exact (Proofs.baudIdTable.1 r (List.mem_of_find?_eq_some h)).2

theorem classifyBaudId_other {c4 : Byte} (hd : baudTable.find? (fun r => r.1 = c4) = none)
    (hl : baudTable.find? (fun r => r.2.1 = c4) = none) : classifyBaudId c4 =
      if 0x20#8 ≤ c4 ∧ c4 ≤ 0x7E#8 ∧ c4 ≠ chSlash ∧ c4 ≠ chBang then .otherPrintable else .invalid := by
  rw [List.find?_eq_none] at hd hl
  exact Proofs.baudIdTable.2 c4 fun r hr => ⟨fun e => hd r hr (by simp [e]), fun e => hl r hr (by simp [e])⟩

/-! ## What D0_ID_PARSE makes of the line (R118 to R122) -/

/-- The buffer holds the identification line and ID_LEN counts it. -/
structure LineIn (s : State) (ident : List Byte) : Prop where
  length : s.idLen.toNat = ident.length
  fits : ident.length ≤ s.bufcap.toNat
  holds : Holds s.buf 0 ident

/-- The internal registers once the terms have been agreed (R120, R121). -/
def Work.agreed (w : Work) (c4 : Byte) (t : Terms) : Work :=
  { w with c4 := c4, newbaud := t.baud.getD w.newbaud, ackq := t.ack, swq := t.baud.isSome }

/-- `Negotiates s ident n r`: D0_ID_PARSE ends as `r` where the tables read the line `ident` as `n`. -/
def Negotiates (s : State) (ident : List Byte) (n : Negotiated) (r : Result) : Prop :=
  match n with
  | .terms t => ∃ c4, ident[4]? = some c4 ∧ r = determineMode t.mode { s with work := s.work.agreed c4 t }
  | .invalid => ∃ w, r = fail .invalidId { s with work := w }
  | .binary => ∃ w, r = fail .unsupportedBinary { s with work := w }

section
variable {s : State} {ident : List Byte} (h : LineIn s ident)
include h

theorem LineIn.bufRead {i : Nat} (hi : i < ident.length) : bufRead i s = (ident[i]?, s) := by
  have hread : s.buf.read i = some ident[i] := (h.holds.read hi).trans (List.getElem?_eq_getElem hi)
  rw [List.getElem?_eq_getElem hi]
  exact bufRead_written (Nat.lt_of_lt_of_le hi h.fits) hread

theorem LineIn.withWork (w : Work) : LineIn { s with work := w } ident := ⟨h.length, h.fits, h.holds⟩

/-- A line that ends `'\r' '\n'` goes to the baud-id fetch (R118). -/
theorem LineIn.idParse_eq : idParse s =
    if 3 ≤ ident.length ∧ ident[ident.length - 2]? = some chCr ∧ ident[ident.length - 1]? = some chLf then baudIdFetch s
    else fail .invalidId s := by
  rw [idParse, h.length]
  by_cases h3 : 3 ≤ ident.length
  · rw [if_neg (by omega), h.bufRead (by omega)]
    by_cases h2 : ident[ident.length - 2]? = some chCr
    · rw [if_pos h2, h.bufRead (by omega)]
      simp only [h3, h2, true_and]
    · rw [if_neg h2, if_neg fun hc => h2 hc.2.1]
  · rw [if_pos (by omega), if_neg fun hc => h3 hc.1]

/-- An identification line with a byte at offset 4 is classified by it (R119). -/
theorem LineIn.idParse_line (hl : IdLine ident) {c4 : Byte} (h4 : ident[4]? = some c4) :
    idParse s = classifyStep c4 s := by
  have hlen : 4 < ident.length := (List.getElem?_eq_some_iff.1 h4).1
  rw [h.idParse_eq, if_pos hl.ends, baudIdFetch, h.length, if_neg (by omega), h.bufRead hlen, h4]

/-- One without is too short (R119). -/
theorem LineIn.idParse_short (hl : IdLine ident) (h4 : ident[4]? = none) : idParse s = fail .invalidId s := by
  rw [h.idParse_eq, if_pos hl.ends, baudIdFetch, h.length, if_pos (List.getElem?_eq_none_iff.1 h4)]

/-- What follows a digit (R121). -/
theorem LineIn.protocolMode_eq (h7 : 7 ≤ ident.length) : protocolMode s =
    if ident[5]? = some chBackslash then
      if ident[6]? = some chTwo then fail .unsupportedBinary s else determineMode .modeE s
    else determineMode .modeC s := by
  have h5 : ¬ ident.length ≤ 5 := by omega
  have h6 : ¬ ident.length ≤ 6 := by omega
  simp only [protocolMode, h.length, if_neg h5, if_neg h6, h.bufRead (show 5 < ident.length by omega),
    h.bufRead (show 6 < ident.length by omega)]

end

/-- D0_ID_PARSE reads an identification line as the tables do. -/
theorem LineIn.negotiates {s : State} {ident : List Byte} (h : LineIn s ident) (hl : IdLine ident) :
    Negotiates s ident (negotiate ident) (idParse s) := by
  unfold negotiate
  split
  next h4 =>
    rw [h.idParse_short hl h4]
    exact ⟨s.work, rfl⟩
  next c4 h4 =>
    rw [h.idParse_line hl h4, classifyStep]
    split
    next r hr =>
      have h7 : 7 ≤ ident.length := hl.length_ge_seven h4 (by rintro rfl; cases hr) (by rintro rfl; cases hr)
      rw [classifyBaudId_digit hr]
      dsimp only
      rw [(h.withWork _).protocolMode_eq h7]
      split
      · split
        · exact ⟨_, rfl⟩
        · exact ⟨c4, h4, rfl⟩
      · exact ⟨c4, h4, rfl⟩
    next hd =>
      split
      next r hr =>
        rw [classifyBaudId_letter hr]
        exact ⟨c4, h4, rfl⟩
      next hlet =>
        rw [classifyBaudId_other hd hlet]
        split
        · exact ⟨c4, h4, rfl⟩
        · exact ⟨_, rfl⟩

/-- A digit, `'\\'` and `'2'` are a binary meter (R133). -/
theorem negotiate_binary {ident : List Byte} {c4 : Byte} (h4 : ident[4]? = some c4) (hlo : 0x30#8 ≤ c4) (hhi : c4 ≤ 0x36#8)
    (h5 : ident[5]? = some chBackslash) (h6 : ident[6]? = some chTwo) : negotiate ident = .binary := by
  have hdigit : (baudTable.find? (fun r => r.1 = c4)).isSome := by
    rw [List.find?_isSome]
    have hrow : c4 = 0x30 ∨ c4 = 0x31 ∨ c4 = 0x32 ∨ c4 = 0x33 ∨ c4 = 0x34 ∨ c4 = 0x35 ∨ c4 = 0x36 := by bv_omega
    simpa [baudTable, eq_comm] using hrow
  obtain ⟨r, hr⟩ := Option.isSome_iff_exists.1 hdigit
  simp only [negotiate, h4, hr, h5, h6, if_true]

/-- A captured line that is no identification line, or that the tables give no mode, is invalid (R118 to R120). -/
theorem LineCaptured.invalid {cap : Nat} {ident : List Byte} {answers : List RxAnswer}
    (hc : LineCaptured cap ident answers) {s : State} (h : LineIn s ident)
    (hbad : ¬ IdLine ident ∨ negotiate ident = .invalid) : ∃ w, idParse s = fail .invalidId { s with work := w } := by
  by_cases hl : IdLine ident
  · have hn := h.negotiates hl
    rwa [hbad.resolve_left (not_not.2 hl)] at hn
  · rw [h.idParse_eq, if_neg fun ⟨h3, hcr, hlf⟩ => hl (hc.idLine h3 hcr hlf)]
    exact ⟨s.work, rfl⟩

theorem LineCaptured.length_le {cap : Nat} {ident : List Byte} {answers : List RxAnswer}
    (h : LineCaptured cap ident answers) : ident.length ≤ cap := by
  cases h <;> simp only [List.length_append, List.length_cons, List.length_nil] <;> omega

theorem LineIn.ofLined {s : State} {ident : List Byte} (h : ident.length ≤ s.bufcap.toNat) (c : Ctl) (w : Work) (e : Env)
    (o : List Output) : LineIn ((s.lined ident).engaged c w e o) ident :=
  ⟨ofNat_length_toNat h, h, .writeAll _ _ _⟩

/-! ## The command up to its identification -/

/-- `e` with these answers left of those the D0 engine takes. -/
def Env.leaving (e : Env) (rx : List RxAnswer) (tx : List TxAnswer) (apply : List ApplyAnswer) (done : Nat) : Env :=
  { e with rx := rx, tx := tx, apply := apply, done := done }

/-- The internal registers after the sign-on (R113, R115). -/
def Work.signedOn (w : Work) (i : Instr) : Work := { (w.begun i).woken 65 with wrote := .written 5 }

section
variable {i : Instr} {s : State} (hr : RunsD0 i s) (hs : Ready s)
include hr

theorem d0Begun_bufcap : (d0Begun i s).bufcap = s.bufcap := by rcases hr with rfl | ⟨rfl, -⟩ <;> rfl

include hs

/-- The command up to D0_ID_PARSE. -/
theorem exec_parses {line : List Byte} {answers rest : List RxAnswer} {txs : List TxAnswer}
    {applies : List ApplyAnswer} {d : Nat} (hc : LineCaptured s.bufcap.toNat line answers)
    (hrx : s.env.rx = answers ++ rest) (htx : s.env.tx = wakeTxAnswers ++ txs)
    (ha : s.env.apply = (if rebases s then [.ok] else []) ++ applies) (hd : s.env.done = 3 + d) :
    exec i s = andThen (idParse (((d0Begun i s).lined line).engaged .d0IdParse ((s.work.signedOn i).atLen line.length)
      (s.env.leaving rest txs applies d) (identificationRequests s answers.length))) advance := by
  rw [← d0Begun_bufcap hr] at hc
  exact (exec_signsOn hr hs ha htx hd).trans (hc.parsed hrx)

/-- What a failure behind the identification line leaves of the state in which the command was taken, whatever STATUS
and CONFIG have become. -/
theorem fail_lined {c : Ctl} {w : Work} {e : Env} {o : List Output} (line : List Byte) (f : Status)
    (g : TransportConfig) (err : ErrCode) :
    andThen (fail err (({ (d0Begun i s).lined line with status := f, config := g } : State).engaged c w e o)) advance =
      .next { d0Start i s with
        status := f
        config := g
        idLen := BitVec.ofNat 16 line.length
        lastLen := 0
        buf := s.buf.writeAll 0 line
        work := w
        result := err.word
        env := e
        out := s.out ++ o ++ [.response err.word] } := by
  rw [fail_engaged, ← hs.1]
  rcases hr with rfl | ⟨rfl, -⟩ <;> rfl

end

end Sys2Proof.Machine

namespace Sys2Proof.Proofs

open Sys2Proof.Machine

/-- Settles O31: the line is captured (`exec_parses`), and the tables read it as a binary meter's. -/
theorem binaryMetersAreRejected : Obligations.BinaryMetersAreRejected := by
  intro i s ident c4 rest txs applies d hr hs hline hcap h4 hlo hhi h5 h6 hrx htx ha hd
  have hcap' : ident.length ≤ (d0Begun i s).bufcap.toNat := by rwa [d0Begun_bufcap hr]
  have hn := (LineIn.ofLined hcap' .d0IdParse ((s.work.signedOn i).atLen ident.length) (s.env.leaving rest txs applies d)
    (identificationRequests s (rxBytes ident).length)).negotiates hline
  rw [negotiate_binary h4 hlo hhi h5 h6] at hn
  obtain ⟨w, hw⟩ := hn
  have hexec := (exec_parses hr hs (hline.captured hcap) hrx htx ha hd).trans (congrArg (andThen · advance) hw)
  rw [rxBytes_length] at hexec
  exact ⟨_, w, hexec.trans (fail_lined hr hs ident { (d0Start i s).status with ackSent := false, signoffSent := false }
    (wakeConfig s) .unsupportedBinary), .writeAll _ _ _, .writeAll _ (Nat.le_refl _)⟩

/-- Settles O32: the line is captured (`exec_parses`), and it is invalid (`LineCaptured.invalid`). -/
theorem invalidIdentificationIsRejected : Obligations.InvalidIdentificationIsRejected := by
  intro i s line answers rest txs applies d hr hs hc hbad hrx htx ha hd
  have hcap : line.length ≤ (d0Begun i s).bufcap.toNat := by
    rw [d0Begun_bufcap hr]
    exact hc.length_le
  obtain ⟨w, hw⟩ := hc.invalid (LineIn.ofLined hcap .d0IdParse ((s.work.signedOn i).atLen line.length)
    (s.env.leaving rest txs applies d) (identificationRequests s answers.length)) hbad
  have hexec := (exec_parses hr hs hc hrx htx ha hd).trans (congrArg (andThen · advance) hw)
  exact ⟨_, w, hexec.trans (fail_lined hr hs line { (d0Start i s).status with ackSent := false, signoffSent := false }
    (wakeConfig s) .invalidId), .writeAll _ _ _, .writeAll _ (Nat.le_refl _)⟩

end Sys2Proof.Proofs
end

section
/-! Behind the identification: the ACK, the baud switch, the capture of the telegram and the sign-off (42_d0_handshake.md
R122 to R131). -/

namespace Sys2Proof.Machine

/-- `s` with the mode of the terms (R122). -/
def State.inMode (s : State) (m : Mode) : State := { s with status := { s.status with mode := m } }

/-- `s` with the ACK recorded (R123). -/
def State.acked (s : State) (ack : Bool) : State := { s with status := { s.status with ackSent := ack } }

/-- `s` with the rate of the terms (R124). -/
def State.atRate (s : State) (baud : Option Baud) : State :=
  { s with config := { s.config with baud := baud.getD s.config.baud } }

/-- `s` with the mode, the ACK and the rate of the terms (R122 to R124). -/
def State.underTerms (s : State) (t : Terms) : State := ((s.inMode t.mode).acked t.ack).atRate t.baud

/-- `s` with the sign-off recorded (R128). -/
def State.signedOff (s : State) (sent : Bool) : State := { s with status := { s.status with signoffSent := sent } }

section
variable {s : State} {c : Ctl} {w : Work} {e : Env} {o : List Output} {k : Nat}

/-! ## ACK and baud switch (R123, R124) -/

/-- The ACK, if the terms ask for it, is written in full and drained. -/
theorem advance_acked {ack : Bool} {txs : List TxAnswer} {d : Nat} (hq : w.ackq = ack) (hs : s.status.ackSent = false)
    (htx : e.tx = (if ack then [.written 6] else []) ++ txs) (hd : e.done = (if ack then 1 else 0) + d) :
    ∃ c' a, andThen (gotoAck (s.engaged c w e o)) advance =
      andThen (gotoBaud ((s.acked ack).engaged c' { w with wrote := a } { e with tx := txs, done := d }
        (o ++ if ack then [.request (.tx (ackBytes w.c4)), .request .drain] else []))) advance := by
  cases ack with
  | true =>
    refine ⟨.d0AckDrain, .written 6, ?_⟩
    rw [gotoAck, engaged_work, if_pos hq, andThen_next, issue_engaged,
      DrainedWrite.ack.advance_full htx (hd.trans (Nat.add_comm 1 d)), onAckDrained, engaged_work, if_pos rfl,
      List.append_assoc]
    rfl
  | false =>
    have he : e = { e with tx := txs, done := d } := by
      rw [← show e.tx = txs from htx, ← show e.done = d from hd.trans (Nat.zero_add d)]
    have hacked : s.acked false = s := by rw [State.acked, ← hs]
    refine ⟨c, w.wrote, ?_⟩
    rw [gotoAck, engaged_work, if_neg (Bool.eq_false_iff.1 hq), ← he, hacked, if_neg Bool.false_ne_true, List.append_nil]

/-- The switch, if the terms name a rate, is applied on a terminal, and CONFIG has the rate. -/
theorem advance_switched {baud : Option Baud} {applies : List ApplyAnswer} (hsw : w.swq = baud.isSome)
    (hnew : ∀ b ∈ baud, w.newbaud = b)
    (ha : e.apply = (if baud.isSome && s.status.term then [.ok] else []) ++ applies) :
    ∃ c', andThen (gotoBaud (s.engaged c w e o)) advance =
      andThen (gotoCapture ((s.atRate baud).engaged c' w { e with apply := applies }
        (o ++ if baud.isSome && s.status.term then [.request (.apply (s.atRate baud).config)] else []))) advance := by
  cases baud with
  | none =>
    have he : e = { e with apply := applies } := by rw [← show e.apply = applies from ha]
    refine ⟨c, ?_⟩
    rw [gotoBaud, engaged_work, if_neg (Bool.eq_false_iff.1 hsw), ← he]
    exact congrArg (fun o' => andThen (gotoCapture (s.engaged c w e o')) advance) (List.append_nil o).symm
  | some b =>
    have hb : w.newbaud = b := hnew b rfl
    subst hb
    have hswq : w.swq = true := hsw
    cases ht : s.status.term with
    | true =>
      rw [ht] at ha
      refine ⟨.d0Baud, ?_⟩
      rw [gotoBaud, engaged_work, if_pos hswq, engaged_status, if_pos ht, andThen_next, issue_engaged]
      exact advance_move (onApply_eq_some.2 ⟨.ok, applies, ha, rfl⟩)
    | false =>
      rw [ht] at ha
      have he : e = { e with apply := applies } := by rw [← show e.apply = applies from ha]
      refine ⟨c, ?_⟩
      rw [gotoBaud, engaged_work, if_pos hswq, engaged_status, if_neg (Bool.eq_false_iff.1 ht), ← he]
      exact congrArg (fun o' => andThen (gotoCapture ((s.atRate (some w.newbaud)).engaged c w e o')) advance)
        (List.append_nil o).symm

/-! ## Capture (R126) -/

/-- The capture begins behind the line. -/
theorem gotoCapture_engaged {n : Nat} (h : s.idLen = BitVec.ofNat 16 n) :
    gotoCapture (s.engaged c w e o) = captureNext (s.engaged c (w.atLen n) e o) := by
  rw [gotoCapture, engaged_idLen, Work.atLen, ← h]
  rfl

theorem captureNext_engaged_room (hk : k < s.bufcap.toNat) : captureNext (s.engaged c (w.atLen k) e o) =
    .next (s.engaged .d0Capture (w.atLen k) e (o ++ rxRequests 1)) := by
  have hne : (s.engaged c (w.atLen k) e o).work.len ≠ (s.engaged c (w.atLen k) e o).bufcap := fun heq => by
    have hlen := congrArg BitVec.toNat heq
    rw [engaged_work, engaged_bufcap, atLen_toNat (s := s) (Nat.le_of_lt hk)] at hlen
    omega
  rw [captureNext_room hne, issue_engaged]
  rfl

theorem captureNext_engaged_full (hk : k = s.bufcap.toNat) : captureNext (s.engaged c (w.atLen k) e o) =
    fail .bufferTooSmall (s.engaged c (w.atLen k) e o) :=
  captureNext_full (BitVec.eq_of_toNat_eq ((atLen_toNat (s := s) (Nat.le_of_eq hk)).trans hk))

/-- One read of the capture. -/
theorem advance_capture {a : RxAnswer} {rest : List RxAnswer} (hk : k < s.bufcap.toNat) (hrx : e.rx = a :: rest) :
    andThen (captureNext (s.engaged c (w.atLen k) e o)) advance =
      andThen (onCapture a (s.engaged .d0Capture (w.atLen k) { e with rx := rest } (o ++ rxRequests 1))) advance := by
  rw [captureNext_engaged_room hk, andThen_next]
  exact advance_move (onRx_eq_some.2 ⟨a, rest, hrx, rfl⟩)

theorem onCapture_engaged_body {b : Byte} (hb : BodyByte s.params.bodyCheck b) (hk : k < s.bufcap.toNat) :
    onCapture (.byte b) (s.engaged c (w.atLen k) e o) =
      captureNext ((s.withBuf (s.buf.write k b)).engaged c (w.atLen (k + 1)) e o) := by
  obtain ⟨hne, hgood⟩ := bodyByte_iff.1 hb
  have hgood' : ¬ badBody (s.engaged c (w.atLen k) e o).params.bodyCheck b = true := Bool.eq_false_iff.1 hgood
  rw [onCapture, if_neg hne, if_neg hgood', storeByte_engaged b hk, andThen_next]

/-- The body and its `'!'` are stored one after another. -/
theorem advance_capture_body {body : List Byte} {rest : List RxAnswer} (hb : ∀ b ∈ body, BodyByte s.params.bodyCheck b)
    (hk : k + body.length + 1 ≤ s.bufcap.toNat) (hrx : e.rx = rxBytes (body ++ [chBang]) ++ rest) :
    andThen (captureNext (s.engaged c (w.atLen k) e o)) advance =
      andThen (gotoSignoff ((s.withBuf (s.buf.writeAll k (body ++ [chBang]))).engaged .d0Capture
        (w.atLen (k + (body.length + 1))) { e with rx := rest } (o ++ rxRequests (body.length + 1)))) advance := by
  induction body generalizing s c e o k with
  | nil =>
    have hk' : k < s.bufcap.toNat := hk
    rw [advance_capture hk' hrx, onCapture, if_pos rfl, storeByte_engaged chBang hk', andThen_next]
    rfl
  | cons b body ih =>
    rw [List.length_cons] at hk
    rw [List.forall_mem_cons] at hb
    have hk' : k < s.bufcap.toNat := by omega
    have hnext : e.rx = .byte b :: (rxBytes (body ++ [chBang]) ++ rest) := hrx
    rw [advance_capture hk' hnext, onCapture_engaged_body hb.1 hk']
    refine (ih (s := s.withBuf (s.buf.write k b)) hb.2 (by rw [withBuf_bufcap]; omega) rfl).trans ?_
    rw [List.append_assoc, ← rxRequests_add, List.length_cons, Nat.add_comm 1 (body.length + 1), Nat.add_assoc k,
      Nat.add_comm 1]
    rfl

/-! ## Sign-off (R128) -/

/-- The sign-off of a terminal is written in full and drained. -/
theorem advance_signedOff {txs : List TxAnswer} {d : Nat} (hm : s.status.mode ≠ .probe)
    (hs : s.status.signoffSent = false) (htx : e.tx = (if s.status.term then [.written 6] else []) ++ txs)
    (hd : e.done = (if s.status.term then 1 else 0) + d) :
    ∃ c' a, andThen (gotoSignoff (s.engaged c w e o)) advance =
      andThen (d0Complete ((s.signedOff s.status.term).engaged c' { w with wrote := a } { e with tx := txs, done := d }
        (o ++ signoffRequests s))) advance := by
  cases ht : s.status.term with
  | true =>
    rw [ht] at htx hd
    have hreq : signoffRequests s = [.request (.tx signoffBytes), .request .drain] := if_pos ht
    have hterm : (s.engaged c w e o).status.term = true := ht
    refine ⟨.d0SignoffDrain, .written 6, ?_⟩
    rw [gotoSignoff_terminal hterm hm, andThen_next, issue_engaged,
      DrainedWrite.signoff.advance_full htx (hd.trans (Nat.add_comm 1 d)), onSignoffDrained, engaged_work, if_pos rfl,
      hreq, List.append_assoc]
    rfl
  | false =>
    rw [ht] at htx hd
    have he : e = { e with tx := txs, done := d } := by
      rw [← show e.tx = txs from htx, ← show e.done = d from hd.trans (Nat.zero_add d)]
    have hoff : s.signedOff false = s := by rw [State.signedOff, ← hs]
    have hreq : signoffRequests s = [] := if_neg (Bool.eq_false_iff.1 ht)
    refine ⟨c, w.wrote, ?_⟩
    have hterm : (s.engaged c w e o).status.term = false := ht
    rw [gotoSignoff_noTerminal hterm, ← he, hoff, hreq, List.append_nil]

/-- From the mode determination to the capture, under the terms of the line (R122 to R124). -/
theorem advance_agreed {c4 : Byte} {t : Terms} {n : Nat} {txs : List TxAnswer} {applies : List ApplyAnswer} {d : Nat}
    (hid : s.idLen = BitVec.ofNat 16 n) (hs : s.status.ackSent = false)
    (htx : e.tx = (if t.ack then [.written 6] else []) ++ txs)
    (ha : e.apply = (if t.baud.isSome && s.status.term then [.ok] else []) ++ applies)
    (hd : e.done = (if t.ack then 1 else 0) + d) :
    ∃ (c' : Ctl) (w' : Work), w'.inRead = w.inRead ∧ andThen (determineMode t.mode (s.engaged c (w.agreed c4 t) e o)) advance =
      andThen (captureNext ((s.underTerms t).engaged c' (w'.atLen n) { e with tx := txs, apply := applies, done := d }
        (o ++ ackRequests c4 t ++
          if t.baud.isSome && s.status.term then [.request (.apply (s.underTerms t).config)] else []))) advance := by
  have hm : determineMode t.mode (s.engaged c (w.agreed c4 t) e o) =
      gotoAck ((s.inMode t.mode).engaged c (w.agreed c4 t) e o) := rfl
  obtain ⟨c1, a, hack⟩ := advance_acked (s := s.inMode t.mode) (w := w.agreed c4 t) (c := c) (o := o) rfl hs htx hd
  obtain ⟨c2, hswitch⟩ := advance_switched (s := (s.inMode t.mode).acked t.ack) (w := { w.agreed c4 t with wrote := a })
    (e := { e with tx := txs, done := d }) (c := c1)
    (o := o ++ if t.ack then [.request (.tx (ackBytes c4)), .request .drain] else []) (baud := t.baud) rfl
    (fun b hb => by rw [Option.mem_def] at hb; simp [Work.agreed, hb]) ha
  refine ⟨c2, { w.agreed c4 t with wrote := a }, rfl, ?_⟩
  refine (congrArg (andThen · advance) hm).trans ((hack.trans hswitch).trans ?_)
  exact congrArg (andThen · advance) (gotoCapture_engaged hid)

end

/-! ## The whole command (R131) -/

/-- The registers and the buffer once the terms of `ident` have been agreed. -/
def d0Agreed (i : Instr) (s : State) (ident : List Byte) (t : Terms) : State := ((d0Begun i s).lined ident).underTerms t

/-- The terms of a negotiation are never Probe (R122). -/
theorem negotiate_mode {ident : List Byte} {t : Terms} (h : negotiate ident = .terms t) : t.mode ≠ .probe := by
  unfold negotiate at h
  repeat' split at h
  all_goals cases h
  all_goals exact Mode.noConfusion

theorem d0Agreed_config (i : Instr) (s : State) (ident : List Byte) (t : Terms) :
    (d0Agreed i s ident t).config = switchedConfig s t := by
  obtain ⟨m, baud, ack⟩ := t
  cases baud <;> rfl

theorem d0Agreed_term {i : Instr} {s : State} (hr : RunsD0 i s) (ident : List Byte) (t : Terms) :
    (d0Agreed i s ident t).status.term = s.status.term := by
  rcases hr with rfl | ⟨rfl, -⟩ <;> rfl

section
variable {i : Instr} {s : State} {ident : List Byte} {c4 : Byte} {t : Terms} {rest : List RxAnswer} {txs : List TxAnswer}
  {applies : List ApplyAnswer} {d : Nat} (hr : RunsD0 i s) (hs : Ready s) (hl : IdLine ident)
  (h4 : ident[4]? = some c4) (ht : negotiate ident = .terms t) (ha : s.env.apply = handshakeApplyAnswers s t ++ applies)
include hr hs hl h4 ht ha

/-- The command up to the capture. -/
theorem exec_agrees (hcap : ident.length ≤ s.bufcap.toNat) (hrx : s.env.rx = rxBytes ident ++ rest)
    (htx : s.env.tx = wakeTxAnswers ++ ((if t.ack then [.written 6] else []) ++ txs))
    (hd : s.env.done = 3 + ((if t.ack then 1 else 0) + d)) :
    ∃ (c : Ctl) (w : Work), w.inRead = decide (i = .read) ∧ exec i s = andThen (captureNext ((d0Agreed i s ident t).engaged c
      (w.atLen ident.length) { s.env with rx := rest, tx := txs, apply := applies, done := d }
      (identificationRequests s ident.length ++ ackRequests c4 t ++ switchRequests s t))) advance := by
  have hcap' : ident.length ≤ (d0Begun i s).bufcap.toNat := by rwa [d0Begun_bufcap hr]
  have happly : s.env.apply = (if rebases s then [.ok] else []) ++
      ((if t.baud.isSome && s.status.term then [.ok] else []) ++ applies) := by
    rw [ha, handshakeApplyAnswers, List.append_assoc]
  have hterm : ((d0Begun i s).lined ident).status.term = s.status.term := by rcases hr with rfl | ⟨rfl, -⟩ <;> rfl
  have hn := (LineIn.ofLined hcap' .d0IdParse ((s.work.signedOn i).atLen ident.length)
    (s.env.leaving rest ((if t.ack then [.written 6] else []) ++ txs)
      ((if t.baud.isSome && s.status.term then [.ok] else []) ++ applies) ((if t.ack then 1 else 0) + d))
    (identificationRequests s (rxBytes ident).length)).negotiates hl
  rw [ht] at hn
  obtain ⟨_, hc, hparse⟩ := hn
  cases Option.some.inj (h4.symm.trans hc)
  obtain ⟨c, w, hin, hagreed⟩ := advance_agreed (s := (d0Begun i s).lined ident) (c := .d0IdParse)
    (w := (s.work.signedOn i).atLen ident.length) (o := identificationRequests s (rxBytes ident).length) (c4 := c4)
    (e := s.env.leaving rest ((if t.ack then [.written 6] else []) ++ txs)
      ((if t.baud.isSome && s.status.term then [.ok] else []) ++ applies) ((if t.ack then 1 else 0) + d))
    (applies := applies) rfl rfl rfl (by rw [hterm]; rfl) rfl
  have hexec := (exec_parses hr hs (hl.captured hcap) hrx htx happly hd).trans
    ((congrArg (andThen · advance) hparse).trans hagreed)
  have hswitch : switchRequests s t = if t.baud.isSome && s.status.term then
      [.request (.apply (d0Agreed i s ident t).config)] else [] := by rw [d0Agreed_config, switchRequests]
  refine ⟨c, w, hin, ?_⟩
  rw [hterm, rxBytes_length] at hexec
  rw [hswitch]
  exact hexec

/-- The command up to its completion (R129). -/
theorem exec_completes {body : List Byte} (hbody : ∀ b ∈ body, BodyByte s.params.bodyCheck b)
    (hcap : ident.length + body.length + 1 ≤ s.bufcap.toNat)
    (hrx : s.env.rx = rxBytes (ident ++ body ++ [chBang]) ++ rest) (htx : s.env.tx = handshakeTxAnswers s t ++ txs)
    (hd : s.env.done = handshakeDone s t + d) :
    ∃ (c : Ctl) (w : Work), w.inRead = decide (i = .read) ∧ exec i s = andThen (d0Complete
      ((((d0Agreed i s ident t).withBuf (s.buf.writeAll 0 (ident ++ body ++ [chBang]))).signedOff s.status.term).engaged c
        (w.atLen (ident.length + (body.length + 1)))
        { s.env with rx := rest, tx := txs, apply := applies, done := d }
        (handshakeRequests s c4 t ident.length (body.length + 1)))) advance := by
  rw [List.append_assoc, rxBytes_append, List.append_assoc] at hrx
  rw [handshakeTxAnswers, List.append_assoc, List.append_assoc] at htx
  rw [handshakeDone, Nat.add_assoc, Nat.add_assoc] at hd
  obtain ⟨c1, w1, hin, hexec⟩ := exec_agrees hr hs hl h4 ht ha (by omega) hrx htx hd
  have hbufcap : (d0Agreed i s ident t).bufcap = s.bufcap := d0Begun_bufcap hr
  have hparams : (d0Agreed i s ident t).params = s.params := by rcases hr with rfl | ⟨rfl, -⟩ <;> rfl
  have hbuf : (d0Agreed i s ident t).buf.writeAll ident.length (body ++ [chBang]) =
      s.buf.writeAll 0 (ident ++ body ++ [chBang]) := by
    have hline : (d0Agreed i s ident t).buf = s.buf.writeAll 0 ident := by rcases hr with rfl | ⟨rfl, -⟩ <;> rfl
    rw [hline, List.append_assoc, Memory.writeAll_append s.buf 0 ident, Nat.zero_add]
  have hcapture := advance_capture_body (s := d0Agreed i s ident t) (c := c1) (w := w1) (rest := rest)
    (e := s.env.leaving (rxBytes (body ++ [chBang]) ++ rest) ((if s.status.term then [.written 6] else []) ++ txs)
      applies ((if s.status.term then 1 else 0) + d))
    (o := identificationRequests s ident.length ++ ackRequests c4 t ++ switchRequests s t)
    (by rwa [hparams]) (by rwa [hbufcap]) rfl
  rw [hbuf] at hcapture
  obtain ⟨c2, a, hoff⟩ := advance_signedOff (c := .d0Capture) (w := w1.atLen (ident.length + (body.length + 1)))
    (s := (d0Agreed i s ident t).withBuf (s.buf.writeAll 0 (ident ++ body ++ [chBang])))
    (e := s.env.leaving rest ((if s.status.term then [.written 6] else []) ++ txs) applies
      ((if s.status.term then 1 else 0) + d))
    (o := identificationRequests s ident.length ++ ackRequests c4 t ++ switchRequests s t ++ rxRequests (body.length + 1))
    (txs := txs) (d := d) (negotiate_mode ht) rfl (by rw [withBuf_status, d0Agreed_term hr]; rfl)
    (by rw [withBuf_status, d0Agreed_term hr]; rfl)
  have hreq : signoffRequests ((d0Agreed i s ident t).withBuf (s.buf.writeAll 0 (ident ++ body ++ [chBang]))) =
      signoffRequests s := by rw [signoffRequests, withBuf_status, d0Agreed_term hr, signoffRequests]
  rw [hreq, withBuf_status, d0Agreed_term hr] at hoff
  exact ⟨c2, { w1 with wrote := a }, hin, hexec.trans (hcapture.trans hoff)⟩

end

/-- Outside READ the completion answers the length of the telegram proper, which is what LEN counts behind the line
(R129). -/
theorem d0Complete_engaged {s : State} {c : Ctl} {w : Work} {e : Env} {o : List Output} {n l : Nat}
    (hi : w.inRead = false) (hid : s.idLen = BitVec.ofNat 16 n) (hl : l < 2 ^ 16) :
    andThen (d0Complete (s.engaged c (w.atLen (n + l)) e o)) advance = .next { s with
      ctl := .idle
      work := w.atLen (n + l)
      lastLen := BitVec.ofNat 16 l
      result := BitVec.ofNat 32 l
      env := e
      out := s.out ++ o ++ [.response (BitVec.ofNat 32 l)] } := by
  have hlen : (s.engaged c (w.atLen (n + l)) e o).work.len - (s.engaged c (w.atLen (n + l)) e o).idLen =
      BitVec.ofNat 16 l := by
    rw [engaged_idLen, hid]
    show BitVec.ofNat 16 (n + l) - BitVec.ofNat 16 n = BitVec.ofNat 16 l
    rw [BitVec.ofNat_add, BitVec.add_comm, BitVec.add_sub_cancel]
  have hwide : (BitVec.ofNat 16 l).setWidth 32 = BitVec.ofNat 32 l := by
    rw [← BitVec.ofNat_toNat, BitVec.toNat_ofNat, Nat.mod_eq_of_lt hl]
  rw [d0Complete_standalone hi, hlen, hwide, andThen_next]
  exact advance_idle rfl

end Sys2Proof.Machine

namespace Sys2Proof.Proofs

open Sys2Proof.Machine

/-- Settles O30: the command comes to its completion (`exec_completes`), and outside READ the length is the response. -/
theorem d0ReadCompletesTheHandshake : Obligations.D0ReadCompletesTheHandshake := by
  intro s ident body c4 t rest txs applies d hs hl h4 ht hbody hcap hrx htx ha hd
  obtain ⟨c, w, hin, hexec⟩ := exec_completes (.inl rfl) hs hl h4 ht ha hbody hcap hrx htx hd
  have hlen : (ident ++ body ++ [chBang]).length = ident.length + body.length + 1 := by
    rw [List.length_append, List.length_append, List.length_singleton]
  have hshort : body.length + 1 < 2 ^ 16 := by
    have := s.bufcap.isLt
    omega
  refine ⟨s.buf.writeAll 0 (ident ++ body ++ [chBang]), w.atLen (ident.length + (body.length + 1)), ?_, .writeAll _ _ _,
    hlen ▸ .writeAll _ (Nat.le_refl _)⟩
  rw [hexec, d0Complete_engaged hin rfl hshort, ← hs.1, ← d0Agreed_config .d0Read s ident t]
  rfl

/-- Settles O57: the terms are agreed (`exec_agrees`), and the capture finds the buffer full. -/
theorem fullLineLeavesNoRoom : Obligations.FullLineLeavesNoRoom := by
  intro i s ident c4 t rest txs applies d hr hs hl hcap h4 ht hrx htx ha hd
  rw [List.append_assoc] at htx
  rw [Nat.add_assoc] at hd
  obtain ⟨c, w, -, hexec⟩ := exec_agrees hr hs hl h4 ht ha (Nat.le_of_eq hcap) hrx htx hd
  have hfull : ident.length = (d0Agreed i s ident t).bufcap.toNat :=
    hcap.trans (congrArg BitVec.toNat (d0Begun_bufcap hr)).symm
  have hid : s.bufcap = BitVec.ofNat 16 ident.length := by rw [hcap, BitVec.ofNat_toNat, BitVec.setWidth_eq]
  refine ⟨_, w.atLen ident.length, ?_, .writeAll _ _ _, .writeAll _ (Nat.le_refl _)⟩
  rw [hexec, captureNext_engaged_full hfull]
  refine (fail_lined hr hs ident (d0Agreed i s ident t).status (d0Agreed i s ident t).config
    .bufferTooSmall).trans ?_
  rw [d0Agreed_config, hid]
  simp only [List.append_assoc]
  rfl

end Sys2Proof.Proofs
end

section
/-! The host access commands and the command word they are taken from (43_session.md R135 to R138). -/

namespace Sys2Proof.Machine

/-! ## A response of an idle block -/

section
variable {s : State} (hi : s.ctl = .idle)
include hi

/-- In an idle block an answer is one more output and nothing else. -/
theorem answer_of_idle (v : Word) : answer v s = { s with out := s.out ++ [.response v] } := by
  rw [answer, ← hi]

theorem succeed_of_idle (v : Nat) : succeed v s =
    .next { s with result := BitVec.ofNat 32 v, out := s.out ++ [.response (BitVec.ofNat 32 v)] } := by
  rw [succeed_eq, respond, answer, ← hi]

/-- In an idle block a failure is its code in RESULT and as the response (60_exceptions.md R162). -/
theorem fail_of_idle (e : ErrCode) :
    fail e s = .next { s with result := e.word, out := s.out ++ [.response e.word] } := by
  rw [fail_frame, ← hi]

end

/-! ## The register index space (10_state.md R21) -/

theorem bit_setWidth (b : Bool) : (bit b).setWidth 32 = if b then 1 else 0 := by
  cases b <;> rfl

/-- What REG_READ looks up is the register file; an index behind its end is reserved. -/
theorem readRegister_eq (reg : BitVec 8) (s : State) : readRegister reg s = (registerFile s)[reg.toNat]? := by
  unfold readRegister
  split
  case h_6 h =>
    rw [h, bit_setWidth]
    rfl
  case h_15 =>
    have hlen : (registerFile s).length = 14 := rfl
    simp only [imp_false] at *
    exact (List.getElem?_eq_none (by omega)).symm
  all_goals next h => rw [h]; rfl

/-- REG_WRITE reaches the four host registers (R137, 30_encoding.md R69). -/
theorem writeRegister_eq (reg : BitVec 8) (value : BitVec 16) (s : State) : writeRegister reg value s =
    if reg = 0x02 then some { s with capacity := value }
    else if reg = 0x03 then some { s with vtime := value.setWidth 8 }
    else if reg = 0x04 then some { s with maxfail := value }
    else if reg = 0x05 then some { s with dumpEn := decide (value.toNat % 2 = 1) }
    else none := by
  have index {k : Nat} (h : reg.toNat = k) : reg = BitVec.ofNat 8 k := by
    rw [← h, BitVec.ofNat_toNat, BitVec.setWidth_eq]
  unfold writeRegister
  split
  case h_1 h => rw [index h]; rfl
  case h_2 h => rw [index h, BitVec.setWidth_eq_extractLsb' (by decide)]; rfl
  case h_3 h => rw [index h]; rfl
  case h_4 h => rw [index h, ← Nat.testBit_zero]; rfl
  case h_5 h2 h3 h4 h5 =>
    rw [if_neg fun e => h2 (by rw [e]; rfl), if_neg fun e => h3 (by rw [e]; rfl), if_neg fun e => h4 (by rw [e]; rfl),
      if_neg fun e => h5 (by rw [e]; rfl)]

/-! ## The commands of an idle block -/

section
variable {s : State} (hi : s.ctl = .idle)
include hi

theorem exec_regWrite_of_some {reg : BitVec 8} {value : BitVec 16} {t : State} (h : writeRegister reg value s = some t)
    (ht : t.ctl = .idle) :
    exec (.regWrite reg value) s = .next { t with result := 0, out := t.out ++ [.response 0] } := by
  simp only [exec, execRegWrite, whenIdle_idle hi, h]
  exact succeed_of_idle ht 0

theorem exec_regWrite_of_none {reg : BitVec 8} {value : BitVec 16} (h : writeRegister reg value s = none) :
    exec (.regWrite reg value) s =
      .next { s with result := 0xFFFFFFF5#32, out := s.out ++ [.response 0xFFFFFFF5#32] } := by
  simp only [exec, execRegWrite, whenIdle_idle hi, h]
  exact fail_of_idle hi .badCmd

/-- A session command of a closed session answers ERR_SESSION (60_exceptions.md R155). -/
theorem whenIdle_whenOpen_closed (ho : s.status.isOpen = false) (k : State → Result) :
    (whenIdle s fun s => whenOpen s k) =
      .next { s with result := 0xFFFFFFFF#32, out := s.out ++ [.response 0xFFFFFFFF#32] } := by
  rw [whenIdle_idle hi, whenOpen_closed ho]
  exact fail_of_idle hi .session

/-- A byte that `BufRead` gives is the response, whatever the count of draws has become (R138). -/
theorem exec_bufRead_byte (ho : s.status.isOpen = true) {offset : BitVec 16} {b : Byte} {d : Nat}
    (h : bufRead offset.toNat s = (some b, { s with draws := d })) : exec (.bufRead offset) s =
      .next { s with draws := d, result := b.setWidth 32, out := s.out ++ [.response (b.setWidth 32)] } := by
  simp only [exec, execBufRead, whenIdle_idle hi, whenOpen_open ho, h]
  rw [succeed_of_idle (s := { s with draws := d }) hi, BitVec.ofNat_toNat]

/-- An offset for which `BufRead` gives no byte is ERR_BADCMD (R138). -/
theorem exec_bufRead_outOfRange (ho : s.status.isOpen = true) {offset : BitVec 16}
    (h : bufRead offset.toNat s = (none, s)) : exec (.bufRead offset) s =
      .next { s with result := 0xFFFFFFF5#32, out := s.out ++ [.response 0xFFFFFFF5#32] } := by
  simp only [exec, execBufRead, whenIdle_idle hi, whenOpen_open ho, h]
  exact fail_of_idle hi .badCmd

end

end Sys2Proof.Machine

namespace Sys2Proof.Proofs

open Sys2Proof.Machine

/-- Settles O5: the word is there, and it decodes. -/
theorem stepRunsDecodedCommand : Obligations.StepRunsDecodedCommand := by
  intro s w ws i hi hh hd
  simp only [step, hi, takeCommand, hh, hd]

/-- Settles O11: the lookup is that of the register file (`readRegister_eq`), and the answer leaves RESULT alone. -/
theorem regReadAnswersTheRegister : Obligations.RegReadAnswersTheRegister := by
  intro reg s hi
  refine execRegRead_eq_next.2 ⟨hi, ?_⟩
  rw [answer_of_idle hi, readRegister_eq]
  rfl

/-- Settles O14, index by index (`writeRegister_eq`). -/
theorem regWriteStoresTheLowBits : Obligations.RegWriteStoresTheLowBits := by
  intro reg value s hi
  have hw := writeRegister_eq reg value s
  split_ifs at hw ⊢
  case' neg => exact exec_regWrite_of_none hi hw
  all_goals exact exec_regWrite_of_some hi hw hi

/-- Settles O15: a closed session, an offset out of range, a written cell and an UNWRITTEN one. -/
theorem bufReadAnswersTheCell : Obligations.BufReadAnswersTheCell := by
  intro offset s hi
  refine ⟨?closed, ?outOfRange, ?written, ?unwritten⟩
  case closed => exact fun ho => whenIdle_whenOpen_closed hi ho _
  case outOfRange =>
    exact fun ho hcap => exec_bufRead_outOfRange hi ho (Machine.bufRead_outOfRange (Nat.not_lt.2 hcap))
  case written => exact fun b ho hcap hb => exec_bufRead_byte (d := s.draws) hi ho (bufRead_written hcap hb)
  case unwritten => exact fun ho hcap hb => ⟨_, exec_bufRead_byte hi ho (bufRead_unwritten hcap hb)⟩

end Sys2Proof.Proofs
end

section
/-! OPEN and CLOSE where they do not open a session (43_session.md R139, R140, R146). -/

namespace Sys2Proof.Machine

/-! ## OPEN -/

/-- An open session or too small a CAPACITY ends OPEN before its first exchange (60_exceptions.md R160). -/
theorem openEntry_refused {p : Path} {s : State} (h : s.status.isOpen = true ∨ s.capacity.toNat < 8) :
    openEntry p s = fail .session s := by
  by_cases ho : s.status.isOpen = true
  · exact if_pos ho
  · exact (if_neg ho).trans (if_pos (h.resolve_left ho))

section
variable {s : State} (hi : s.ctl = .idle) (p : Path)
include hi

/-- The OPEN of path `p`, in an idle block. -/
theorem exec_open : exec (if p = .d0 then .openD0 else .openP1) s = andThen (openEntry p s) advance :=
  calc exec (if p = .d0 then .openD0 else .openP1) s
      = whenIdle s fun s => andThen (openEntry p s) advance := by cases p <;> rfl
    _ = _ := whenIdle_idle hi _

/-- With nothing against it, OPEN goes on with the answer to its `Acquire` (R139). -/
theorem exec_open_acquires (ho : s.status.isOpen = false) (hc : 8 ≤ s.capacity.toNat) {a : AcquireAnswer}
    {acquires : List AcquireAnswer} (ha : s.env.acquire = a :: acquires) :
    exec (if p = .d0 then .openD0 else .openP1) s =
      andThen (onAcquired p a (s.engaged (.opAcquire p) s.work { s.env with acquire := acquires } [.request .acquire]))
        advance := by
  rw [exec_open hi, openEntry_free ho hc, andThen_next, advance_opAcquire ha]
  rfl

/-- What a failure leaves of the state in which its command was taken, when nothing was written before it. -/
theorem fail_engaged_of_idle {c : Ctl} {e : Env} {o : List Output} (err : ErrCode) :
    andThen (fail err (s.engaged c s.work e o)) advance =
      .next { s with result := err.word, env := e, out := s.out ++ (o ++ [.response err.word]) } := by
  rw [fail_engaged, ← hi, List.append_assoc]

end

section
variable {s : State} {c : Ctl} {w : Work} {e : Env} {o : List Output}

/-- A terminal gets the P1 baseline applied (R139). -/
theorem onAcquired_terminal {p : Path} {a : ApplyAnswer} {as : List ApplyAnswer} (h : e.apply = a :: as) :
    andThen (onAcquired p (.ok true) (s.engaged c w e o)) advance =
      andThen (onAppliedP1 p a (s.engaged (.opApplyP1 p) w { e with apply := as }
        (o ++ [.request (.apply (p1Baseline s.vtime))]))) advance := by
  rw [onAcquired, andThen_next, issue_engaged]
  exact advance_move (onApply_eq_some.2 ⟨a, as, h, rfl⟩)

theorem onAppliedP1_fail (p : Path) (s : State) : onAppliedP1 p .fail s = openFailed s := by cases p <;> rfl

/-- And for OPEN_D0 the D0 baseline behind it (R140). -/
theorem onAppliedP1_d0 {a : ApplyAnswer} {as : List ApplyAnswer} (h : e.apply = a :: as) :
    andThen (onAppliedP1 .d0 .ok (s.engaged c w e o)) advance =
      andThen (onAppliedD0 a (s.engaged .opApplyD0 w { e with apply := as }
        (o ++ [.request (.apply (d0Baseline (p1Baseline s.vtime)))]))) advance := by
  rw [onAppliedP1, andThen_next, issue_engaged]
  exact advance_move (onApply_eq_some.2 ⟨a, as, h, rfl⟩)

/-- A failed baseline `Apply` is followed by one `Restore`, and then the command fails (R139, R140). -/
theorem openFailed_restores {d : Nat} (hd : e.done = d + 1) : andThen (openFailed (s.engaged c w e o)) advance =
    andThen (fail .config (s.engaged .opRestore w { e with done := d } (o ++ [.request .restore]))) advance := by
  rw [openFailed, andThen_next, issue_engaged]
  exact advance_move (onDone_eq_some.2 ⟨d, hd, rfl⟩)

end

/-! ## CLOSE -/

/-- CLOSE of an open session goes on from its first exchange, if it makes one. -/
theorem exec_close_open {s : State} (hi : s.ctl = .idle) (ho : s.status.isOpen = true) :
    exec .close s = andThen (closeEntry s) advance := by
  rw [exec, execClose, whenIdle_idle hi, whenOpen_open ho]

/-- What CLOSE leaves (R146). -/
theorem closed_ends (s : State) : andThen (closed s) advance =
    .next { closeSession s with ctl := .idle, result := 0, out := s.out ++ [.response 0] } :=
  advance_idle rfl

theorem closeEntry_terminal {s : State} (ht : s.status.term = true) {d : Nat} (hd : s.env.done = d + 1) :
    andThen (closeEntry s) advance =
      andThen (closed { issue .restore .clRestore s with env := { s.env with done := d } }) advance := by
  rw [closeEntry, if_pos ht, andThen_next]
  exact advance_move (onDone_eq_some.2 ⟨d, hd, rfl⟩)

theorem closeEntry_noTerminal {s : State} (ht : s.status.term = false) : closeEntry s = closed s :=
  if_neg (Bool.eq_false_iff.1 ht)

end Sys2Proof.Machine

namespace Sys2Proof.Proofs

open Sys2Proof.Machine

/-- Settles O41: the tests before `Acquire`, a failed `Acquire`, and each failed baseline `Apply` with its `Restore`
(`openFailed_restores`). -/
theorem failedOpenLeavesNoTrace : Obligations.FailedOpenLeavesNoTrace := by
  intro p s hi
  refine ⟨?refused, ?acquire, ?baseline, ?d0Baseline⟩
  case refused =>
    intro h
    rw [exec_open hi, openEntry_refused h, fail_of_idle hi, andThen_next]
    exact advance_idle hi
  case acquire =>
    intro acquires ho hc ha
    rw [exec_open_acquires hi p ho hc ha]
    exact fail_engaged_of_idle hi .session
  case baseline =>
    intro acquires applies d ho hc ha hp hd
    rw [exec_open_acquires hi p ho hc ha, onAcquired_terminal (e := { s.env with acquire := acquires }) hp,
      onAppliedP1_fail]
    exact (openFailed_restores (e := { s.env with acquire := acquires, apply := applies }) hd).trans
      (fail_engaged_of_idle hi .config)
  case d0Baseline =>
    rintro acquires applies d rfl ho hc ha hp hd
    refine (exec_open_acquires hi .d0 ho hc ha).trans ?_
    rw [onAcquired_terminal (e := { s.env with acquire := acquires }) hp, onAppliedP1_d0 rfl]
    exact (openFailed_restores (e := { s.env with acquire := acquires, apply := applies }) hd).trans
      (fail_engaged_of_idle hi .config)

/-- Settles O42: a closed session, a terminal with its `Restore`, and another transport. -/
theorem closeEndsTheSession : Obligations.CloseEndsTheSession := by
  intro s d hi
  refine ⟨fun ho => whenIdle_whenOpen_closed hi ho _, fun ho hd => ?_⟩
  rw [exec_close_open hi ho]
  cases ht : s.status.term with
  | true =>
    rw [ht] at hd
    rw [closeEntry_terminal ht hd, closed_ends, ← hi, closeSession]
    rfl
  | false =>
    rw [ht] at hd
    have he : s.env = { s.env with done := d } := by rw [← show s.env.done = d from hd]
    rw [closeEntry_noTerminal ht, closed_ends, ← hi, closeSession, ← he, if_neg Bool.false_ne_true, List.append_nil]
    rfl

end Sys2Proof.Proofs
end

section
/-! READ behind the framer and the D0 engine: the parse, the CRC and its compare, the dump, and the toggle
(43_session.md R141 to R150). -/

namespace Sys2Proof.Machine

/-! ## The parse and what follows it -/

/-- The tail of a held string is held behind its head. -/
theorem Holds.tail {m : Memory} {l t : List Byte} (h : Holds m 0 (l ++ t)) : Holds m l.length t := fun j hj => by
  have hr := h (l.length + j) (by rw [List.length_append]; omega)
  simpa [List.getElem_append_right] using hr

/-- Written bytes are handed to `Parse` as they are, and kept for the `Dump` (R147, R149). -/
theorem parseStep_holds {s : State} {i : Nat} {tel : List Byte} (hcap : i + tel.length ≤ s.bufcap.toNat)
    (h : Holds s.buf i tel) : parseStep i tel.length s =
      .next (issue (.parse tel) .rdParse { s with work := { s.work with telegram := tel } }) := by
  rw [parseStep, bufSlice_written tel i s hcap h]

/-- `s` when the `Parse` of `tel` is answered and `parses` are left (R149). -/
def State.parsing (s : State) (tel : List Byte) (parses : List ParseAnswer) : State :=
  { s with
    ctl := .rdParse
    work := { s.work with telegram := tel }
    env := { s.env with parse := parses }
    out := s.out ++ [.request (.parse tel)] }

theorem parseStep_answered {s : State} {i : Nat} {tel : List Byte} {o : ParseAnswer} {parses : List ParseAnswer}
    (hcap : i + tel.length ≤ s.bufcap.toNat) (h : Holds s.buf i tel) (ho : s.env.parse = o :: parses) :
    andThen (parseStep i tel.length s) advance = andThen (onParsed o (s.parsing tel parses)) advance := by
  rw [parseStep_holds hcap h, andThen_next]
  exact advance_move (onParse_eq_some.2 ⟨o, parses, ho, rfl⟩)

/-- STATUS with the outcome `o` of the first parse since READ cleared it (R149). -/
def Status.parsed (f : Status) (o : ParseAnswer) : Status :=
  { f with
    crcPresent := o.crc.isSome
    parseStatus := some o.status
    parseOk := decide (o.status = .accepted ∧ o.errors = 0) }

/-- parse_record over a cleared outcome (R141, R149). -/
theorem recordParse_cleared {s : State} (hp : s.status.crcPresent = false) (he : s.crcEmbedded = 0) (o : ParseAnswer) :
    recordParse o s = { s with
      status := s.status.parsed o
      crcEmbedded := o.crc.getD 0
      parseErrors := saturate31 o.errors } := by
  have hpresent : (if o.crc.isSome then true else s.status.crcPresent) = o.crc.isSome := by
    rw [hp]
    cases o.crc <;> rfl
  rw [recordParse, hpresent, he, Status.parsed, Bool.decide_and]

/-- Whether the parser's CRC differs from `c` (R144). -/
def ParseAnswer.mismatches (o : ParseAnswer) (c : BitVec 16) : Bool :=
  match o.crc with
  | some e => decide (e ≠ c)
  | none => false

theorem ParseAnswer.mismatches_eq (o : ParseAnswer) (c : BitVec 16) :
    o.mismatches c = (o.crc.isSome && decide (o.crc.getD 0 ≠ c)) := by
  unfold mismatches
  cases o.crc <;> rfl

/-- On the D0 path the dump follows at once (R145). -/
theorem onParsed_d0 {s : State} (hpath : s.status.path = .d0) (o : ParseAnswer) :
    onParsed o s = dumpStep o.errors (recordParse o s) := by
  simp only [onParsed, recordParse_status, hpath]

/-- On the P1 path the CRC unit and the compare come first (R142, R144). -/
theorem onParsed_p1 {s : State} (hpath : s.status.path = .p1) (o : ParseAnswer) :
    onParsed o s = dumpStep o.errors (crcCheck (recordParse o s)) := by
  simp only [onParsed, recordParse_status, hpath]

/-- The CRC of a held telegram is that of CRC_COMPUTE (R142). -/
theorem crcCheck_holds {s : State} {tel : List Byte} (hcap : tel.length ≤ s.bufcap.toNat) (h : Holds s.buf 0 tel)
    (hl : s.lastLen = BitVec.ofNat 16 tel.length) : crcCheck s =
      compareCrc (classOf s.params.crc tel).2 (setCrc (classOf s.params.crc tel).1 (classOf s.params.crc tel).2 s) := by
  rw [crcCheck, hl, ofNat_length_toNat hcap, crcBody_holds hcap h]

/-- READ ends, after a `Dump` when a sink is attached and errors were counted (R147, R148). -/
theorem dumpStep_finishes {s : State} {e d l : Nat} (hl : s.lastLen.toNat = l) (hdumped : s.status.dumped = false)
    (hd : s.env.done = d + (if s.dumpS = true ∧ 0 < e then 1 else 0)) : andThen (dumpStep e s) advance =
      .next { s with
        status := { s.status with dumped := decide (s.dumpS = true ∧ 0 < e) }
        ctl := .idle
        result := BitVec.ofNat 32 l
        env := { s.env with done := d }
        out := s.out ++ (if s.dumpS = true ∧ 0 < e then [.request (.dump s.work.telegram)] else []) ++
          [.response (BitVec.ofNat 32 l)] } := by
  subst hl
  by_cases h : s.dumpS = true ∧ 0 < e
  · have hdump : (s.dumpS && decide (0 < e)) = true := by simpa using h
    have hmove : move (issue (.dump s.work.telegram) .rdDump s) =
        some (onDumped { issue (.dump s.work.telegram) .rdDump s with env := { s.env with done := d } }) :=
      onDone_eq_some.2 ⟨d, by rw [issue_env, hd, if_pos h], rfl⟩
    rw [dumpStep, if_pos hdump, andThen_next, advance_move hmove, if_pos h, decide_eq_true h]
    exact advance_idle rfl
  · have hdump : ¬ (s.dumpS && decide (0 < e)) = true := by simpa using h
    have he : s.env = { s.env with done := d } := by rw [← show s.env.done = d by rw [hd, if_neg h, Nat.add_zero]]
    rw [dumpStep, if_neg hdump, readDone, succeed_eq, andThen_next, advance_idle rfl, if_neg h, List.append_nil,
      decide_eq_false h, ← hdumped, ← he]
    rfl

/-! ## A delivered telegram -/

/-- `s`, where READ's body has ended, with the telegram `tel` of the response and the outcome `o` recorded, and the dump
made or not: what both paths leave but for the CRC (R145, R147 to R149). -/
def State.delivered (s : State) (tel : List Byte) (o : ParseAnswer) (parses : List ParseAnswer) (d : Nat) : State :=
  { s with
    status := { s.status.parsed o with dumped := decide (s.dumpS = true ∧ 0 < o.errors) }
    crcEmbedded := o.crc.getD 0
    parseErrors := saturate31 o.errors
    ctl := .idle
    work := { s.work with telegram := tel }
    result := BitVec.ofNat 32 tel.length
    env := { s.env with parse := parses, done := d }
    out := s.out ++ [.request (.parse tel)] ++
      (if s.dumpS = true ∧ 0 < o.errors then [.request (.dump tel)] else []) ++
      [.response (BitVec.ofNat 32 tel.length)] }

section
variable {s : State} {i d : Nat} {tel : List Byte} {o : ParseAnswer} {parses : List ParseAnswer}
  (hcap : i + tel.length ≤ s.bufcap.toNat) (h : Holds s.buf i tel) (hl : s.lastLen = BitVec.ofNat 16 tel.length)
  (hpresent : s.status.crcPresent = false) (hdumped : s.status.dumped = false) (he : s.crcEmbedded = 0)
  (ho : s.env.parse = o :: parses) (hd : s.env.done = d + (if s.dumpS = true ∧ 0 < o.errors then 1 else 0))
include hcap h hl hpresent hdumped he ho hd

/-- The end of READ_D0: the telegram proper is parsed and delivered (R145). -/
theorem parseStep_d0 (hpath : s.status.path = .d0) : andThen (parseStep i tel.length s) advance =
    .next (s.delivered tel o parses d) := by
  have hlen : s.lastLen.toNat = tel.length := by
    rw [hl, ofNat_length_toNat (cap := s.bufcap) (by omega)]
  rw [parseStep_answered hcap h ho, onParsed_d0 (s := s.parsing tel parses) hpath,
    recordParse_cleared (s := s.parsing tel parses) hpresent he]
  exact dumpStep_finishes (d := d) (by exact hlen) (by exact hdumped) (by exact hd)

/-- The end of READ_P1: the telegram is parsed, its CRC computed and compared, and it is delivered (R142). -/
theorem parseStep_p1 (hpath : s.status.path = .p1) (hi : i = 0) : andThen (parseStep i tel.length s) advance =
    .next { s.delivered tel o parses d with
      status := { (s.delivered tel o parses d).status with
        style := (classOf s.params.crc tel).1
        crcMismatch := o.mismatches (classOf s.params.crc tel).2 }
      crcComputed := (classOf s.params.crc tel).2 } := by
  subst hi
  have hcap' : tel.length ≤ s.bufcap.toNat := by omega
  have hlen : s.lastLen.toNat = tel.length := by rw [hl, ofNat_length_toNat hcap']
  rw [parseStep_answered hcap h ho, onParsed_p1 (s := s.parsing tel parses) hpath,
    crcCheck_holds (s := recordParse o (s.parsing tel parses)) hcap' h hl,
    recordParse_cleared (s := s.parsing tel parses) hpresent he]
  refine (dumpStep_finishes (d := d) (by exact hlen) (by exact hdumped) (by exact hd)).trans ?_
  rw [ParseAnswer.mismatches_eq]
  rfl

end

end Sys2Proof.Machine
end

section
/-! The settled statements about READ: how it enters the framer, and how it goes on where the framer or the D0 engine
ends (43_session.md R141 to R145). -/

namespace Sys2Proof.Machine

/-! ## READ around the framer (R142) -/

/-- The internal registers the framer starts with inside READ (41_framer.md R95, 43_session.md R141). -/
def Work.readEntry (w : Work) (maxfail : BitVec 16) : Work :=
  { w.frameEntry maxfail with inRead := true }

/-- READ of a P1 session clears the outcome and begins to search, as FRAME_READ does. -/
theorem exec_read_p1 {s : State} (hs : Ready s) (hpath : s.status.path = .p1) : exec .read s =
    advance ((clearOutcome s).scan .frSearch s.buf (s.work.readEntry s.maxfail) 0 s.env.rx 1) := by
  obtain ⟨hidle, hopen⟩ := hs
  rw [exec_eq_start, start, whenIdle_idle hidle, whenOpen_open hopen, andThen_next, readEntry_p1 hpath]
  rfl

/-- `s` with the length in LAST_LEN with which READ's body has ended (R142, R145). -/
def State.ended (s : State) (l : Nat) : State := { s with lastLen := BitVec.ofNat 16 l }

/-- `s` where the framer has ended without a telegram inside READ. -/
def State.silent (s : State) (c : Ctl) (m : Memory) (w : Work) (n : Nat) (as : List RxAnswer) (r : Nat) : State :=
  ((clearOutcome s).scan c m w n as r).ended 0

section
variable {s : State} {c : Ctl} {m : Memory} {w : Work} {n r : Nat} {as : List RxAnswer} (hi : w.inRead = true)
include hi

/-- Inside READ a telegram is parsed from offset 0. -/
theorem frameFound_inRead {l : Nat} (hl : l ≤ s.bufcap.toNat) :
    frameFound (BitVec.ofNat 16 l) (s.scan c m w n as r) = parseStep 0 l ((s.scan c m w n as r).ended l) := by
  have hlen : (BitVec.ofNat 16 l).toNat = l := Nat.mod_eq_of_lt (Nat.lt_of_le_of_lt hl s.bufcap.isLt)
  refine (if_pos hi).trans ?_
  rw [hlen]
  rfl

/-- Inside READ no telegram leads to the toggle. -/
theorem frameNone_inRead : frameNone ((clearOutcome s).scan c m w n as r) = toggleStep (s.silent c m w n as r) :=
  if_pos hi

end

/-! ## The toggle (R143) -/

theorem toggleStep_still {s : State} (h : s.status.term = false ∨ s.status.mode ≠ .probe) :
    toggleStep s = succeed 0 { s with lastLen := 0 } := by
  refine if_neg fun hb => ?_
  obtain ⟨ht, hm⟩ := Bool.and_eq_true_iff.1 hb
  rcases h with h | h
  · exact absurd (ht.symm.trans h) (by decide)
  · exact h (of_decide_eq_true hm)

/-- On a terminal in Probe mode the other rate is applied. -/
theorem toggleStep_answered {s : State} (ht : s.status.term = true) (hm : s.status.mode = .probe) {a : ApplyAnswer}
    {applies : List ApplyAnswer} (ha : s.env.apply = a :: applies) : andThen (toggleStep s) advance =
      andThen (onToggled a { issue (.apply (toggled s.config)) .rdToggle s with
        env := { s.env with apply := applies } }) advance := by
  rw [toggleStep, if_pos (Bool.and_eq_true_iff.2 ⟨ht, decide_eq_true hm⟩), andThen_next]
  exact advance_move (onApply_eq_some.2 ⟨a, applies, ha, rfl⟩)

/-! ## READ behind the D0 engine (R145) -/

/-- Inside READ the telegram proper is parsed from behind the identification line. -/
theorem d0Complete_inRead {s : State} {c : Ctl} {w : Work} {e : Env} {o : List Output} {n l : Nat}
    (hi : w.inRead = true) (hid : s.idLen = BitVec.ofNat 16 n) (hcap : n + l ≤ s.bufcap.toNat) :
    d0Complete (s.engaged c (w.atLen (n + l)) e o) =
      parseStep n l ((s.engaged c (w.atLen (n + l)) e o).ended l) := by
  have hlt := s.bufcap.isLt
  have hlen : (s.engaged c (w.atLen (n + l)) e o).work.len - s.idLen = BitVec.ofNat 16 l := by
    rw [hid, engaged_work, Work.atLen, BitVec.ofNat_add, BitVec.add_comm, BitVec.add_sub_cancel]
  have hn : s.idLen.toNat = n := by
    rw [hid]
    exact Nat.mod_eq_of_lt (by omega)
  have hl : (BitVec.ofNat 16 l).toNat = l := Nat.mod_eq_of_lt (by omega)
  rw [d0Complete, engaged_idLen, hlen]
  refine (if_pos hi).trans ?_
  rw [hl, engaged_idLen, hn]
  rfl

end Sys2Proof.Machine

namespace Sys2Proof.Proofs

open Sys2Proof.Machine

/-- Settles O43: the framer finds the telegram behind what it discards, as for O25, and the rest of READ is
`parseStep_p1`. -/
theorem p1ReadDeliversAndChecks : Obligations.P1ReadDeliversAndChecks := by
  intro s junk n tel rest o parses d hs hpath hcap8 hjunk hbudget hframed hcap hrx ho hd
  obtain ⟨m1, w1, hc1, hsearch⟩ := hjunk.searching (s := clearOutcome s) (m := s.buf)
    (w := s.work.readEntry s.maxfail) (n := 0) (r := 0) (as := rxBytes tel ++ rest) hcap8
    (by rw [Nat.zero_add]; exact hbudget)
  obtain ⟨c, w2, hc2, hfound⟩ := hframed.found (s := clearOutcome s) (m := m1) (w := w1) (as := rest) (n := 0 + n)
    (r := 0 + junk.length) hcap
  have hc := hc1.trans hc2
  have hzero : 0 + tel.length ≤ s.bufcap.toNat := by rwa [Nat.zero_add]
  refine ⟨m1.writeAll 0 tel, { w2 with telegram := tel }, ?_, Holds.writeAll _ _ _, hc.beyond⟩
  calc exec .read s
      = advance ((clearOutcome s).scan .frSearch s.buf (s.work.readEntry s.maxfail) 0
          (junk ++ (rxBytes tel ++ rest)) (0 + 1)) := by rw [exec_read_p1 hs hpath, hrx, List.append_assoc]
    _ = _ := hsearch.trans hfound
    _ = andThen (parseStep 0 tel.length (((clearOutcome s).scan c (m1.writeAll 0 tel) w2 n rest
          (junk.length + tel.length)).ended tel.length)) advance := by
        rw [frameFound_inRead (s := clearOutcome s) hc.inRead hcap, Nat.zero_add, Nat.zero_add]
    _ = _ := parseStep_p1 (by exact hzero) (Holds.writeAll m1 0 tel) rfl rfl rfl rfl ho hd hpath rfl
    _ = _ := by
      rw [State.delivered, ← hs.1]
      rfl

/-- Settles O44: the stream ends the framer without a telegram (`Fruitless.findsNothing`), and then the toggle is not
due, or is applied, or fails. -/
theorem p1ReadTogglesOnSilence : Obligations.P1ReadTogglesOnSilence := by
  intro s stream rest n hs hpath hcap hstream hrx
  obtain ⟨c, m, w, hc, hnone⟩ := Fruitless.findsNothing (s := clearOutcome s) (m := s.buf)
    (w := s.work.readEntry s.maxfail) (as := rest) hstream hcap
  have hexec : exec .read s = andThen (toggleStep (s.silent c m w n rest stream.length)) advance := by
    rw [exec_read_p1 hs hpath, hrx, hnone, frameNone_inRead hc.inRead]
  refine ⟨m, w, hc.beyond, ?still, ?toggled, ?failed⟩
  case still =>
    intro h
    rw [hexec, toggleStep_still (s := s.silent c m w n rest stream.length) h, succeed_eq, andThen_next,
      advance_idle rfl, respond, answer, ← hs.1]
    rfl
  case toggled =>
    intro applies ht hm ha
    rw [hexec, toggleStep_answered (s := s.silent c m w n rest stream.length) ht hm ha, onToggled, succeed_eq,
      andThen_next, advance_idle rfl, respond, answer, ← hs.1, issue_out, List.append_assoc]
    rfl
  case failed =>
    intro applies ht hm ha
    rw [hexec, toggleStep_answered (s := s.silent c m w n rest stream.length) ht hm ha, onToggled, fail_frame,
      andThen_next, advance_idle rfl, ← hs.1, issue_out, List.append_assoc]
    rfl

/-- Settles O45: the handshake comes to its completion (`exec_completes`), and the rest of READ is `parseStep_d0`. -/
theorem d0SessionReadDelivers : Obligations.D0SessionReadDelivers := by
  intro s ident body c4 t rest txs applies o parses d hs hpath hl h4 ht hbody hcap hrx htx ha ho hd
  rw [Nat.add_assoc] at hd
  obtain ⟨c, w, hin, hexec⟩ := exec_completes (.inr ⟨rfl, hpath⟩) hs hl h4 ht ha hbody hcap hrx htx hd
  have hlen : (ident ++ body ++ [chBang]).length = ident.length + body.length + 1 := by
    rw [List.length_append, List.length_append, List.length_singleton]
  have hproper : (body ++ [chBang]).length = body.length + 1 := by rw [List.length_append, List.length_singleton]
  have hheld : Holds (s.buf.writeAll 0 (ident ++ body ++ [chBang])) ident.length (body ++ [chBang]) := by
    rw [List.append_assoc]
    exact (Holds.writeAll s.buf 0 (ident ++ (body ++ [chBang]))).tail
  refine ⟨s.buf.writeAll 0 (ident ++ body ++ [chBang]),
    { w.atLen (ident.length + (body.length + 1)) with telegram := body ++ [chBang] }, ?_, .writeAll _ _ _,
    hlen ▸ .writeAll _ (Nat.le_refl _)⟩
  rw [← hproper] at hexec ⊢
  rw [hexec, d0Complete_inRead hin rfl (by rw [hproper]; exact hcap)]
  refine (parseStep_d0 (o := o) (parses := parses) (d := d) ?cap ?held ?len ?present ?dumped ?embedded ?parse ?done
    ?path).trans ?delivered
  case cap => rw [hproper]; exact hcap
  case held => exact hheld
  case len | present | dumped | embedded => rfl
  case parse => exact ho
  case done => exact Nat.add_comm ..
  case path => exact hpath
  case delivered =>
    rw [State.delivered, ← hs.1, ← d0Agreed_config .read s ident t]
    rfl

end Sys2Proof.Proofs
end

section
/-! The settled statements about the failure codes (60_exceptions.md R155, R156). -/

namespace Sys2Proof.Proofs

open Sys2Proof.Machine

/-- Settles O16: behind the test that the block is idle, each of the six begins with the test of OPEN, and nothing of what
would follow is reached (`whenIdle_whenOpen_closed`). -/
theorem closedSessionAnswersErrSession : Obligations.ClosedSessionAnswersErrSession := by
  rintro i s hi ho (rfl | rfl | rfl | rfl | ⟨n, rfl⟩ | ⟨offset, rfl⟩)
  all_goals exact whenIdle_whenOpen_closed hi ho _

/-- Settles O17: each word is evaluated from its number (`ErrCode.code`). -/
theorem failureCodeNumbers : Obligations.FailureCodeNumbers := by
  unfold Obligations.FailureCodeNumbers ErrCode.word ErrCode.code
  decide

end Sys2Proof.Proofs
end

section
/-! The settled statement about the block at rest (70_reset_and_hazards.md R171). -/

namespace Sys2Proof.Machine

/-- The command port holds no word just when the host has sent none. -/
theorem takeCommand_eq_none {s : State} : takeCommand s = none ↔ s.env.host = [] := by
  unfold takeCommand
  cases s.env.host with
  | nil => exact iff_of_true rfl rfl
  | cons w ws => exact iff_of_false (Option.some_ne_none _) (List.cons_ne_nil w ws)

end Sys2Proof.Machine

namespace Sys2Proof.Proofs

open Sys2Proof.Machine

/-- Settles O6: there is no word to take (`takeCommand_eq_none`), so the step is the idle block's own. -/
theorem idleBlockExecutesNothing : Obligations.IdleBlockExecutesNothing := by
  intro s hi hh
  simp only [step, hi, takeCommand_eq_none.2 hh]

end Sys2Proof.Proofs
end
